-- ==== Sys2Proof/Word.lean ====
section
/-! DEFINITION. The word types of the AY7 die and the one sparse-table type every memory and register file is held in. -/

namespace Sys2Proof

/-- A register, a lane of a vector register, a scalar register: 32 bits (R14). -/
abbrev Word := BitVec 32

/-- A byte of a memory. -/
abbrev Byte := BitVec 8

/-- A 12-bit core code, row × 64 + column (R515). -/
abbrev CoreCode := BitVec 12

/-- A 16-bit status code; 0 is OK (R21). -/
abbrev Status := BitVec 16

/-- A 16-bit die address, PKG × 16 + SLOT (R513). -/
abbrev DieAddr := BitVec 16

/-- A sparse table: keys strictly rising, and no entry equal to what an unlisted key reads as. -/
abbrev Tbl (α : Type) := List (Nat × α)

end Sys2Proof
end

