-- ==== Sys2Proof/Machine/Bits.lean ====
section
/-! DEFINITION. Bit fields, sign extension, byte order and small arithmetic shared by every layer. -/

namespace Sys2Proof.Machine

/-- Bits [hi:lo] of a number, as a number (the bit ranges of R14). -/
def nfld (w hi lo : Nat) : Nat := (w >>> lo) % 2 ^ (hi - lo + 1)

/-- Bits [hi:lo] of a bit vector, as a number. -/
def fld {n : Nat} (w : BitVec n) (hi lo : Nat) : Nat := nfld w.toNat hi lo

/-- Bit i of a bit vector. -/
def bit {n : Nat} (w : BitVec n) (i : Nat) : Bool := w.getLsbD i

/-- One bit as a number. -/
def b2n (b : Bool) : Nat := if b then 1 else 0

/-- A number read as a two's complement integer of `width` bits. -/
def sx (x width : Nat) : Int :=
  if x % 2 ^ width < 2 ^ (width - 1) then (x % 2 ^ width : Nat) else (x % 2 ^ width : Nat) - (2 ^ width : Nat)

/-- An integer narrowed to `w` bits, two's complement. -/
def ofI (w : Nat) (i : Int) : BitVec w := BitVec.ofInt w i

/-- A field of `v` placed at bit `lo`. -/
def put (v lo : Nat) : Nat := v <<< lo

/-- A counter that holds at 0xFFFF_FFFF (R65, R118 and every RC counter). -/
def satAdd32 (c : Word) (n : Nat) : Word :=
  if c.toNat + n < 2 ^ 32 then BitVec.ofNat 32 (c.toNat + n) else BitVec.ofNat 32 (2 ^ 32 - 1)

/-- ⌈a ÷ b⌉. -/
def ceilDiv (a b : Nat) : Nat := (a + b - 1) / b

/-- A little-endian number from bytes, the first the lowest (R14, R47). -/
def leNat : List Byte → Nat
  | [] => 0
  | b :: bs => b.toNat + 256 * leNat bs

/-- The `n` little-endian bytes of a number. -/
def leBytes : Nat → Nat → List Byte
  | 0, _ => []
  | n + 1, x => BitVec.ofNat 8 x :: leBytes n (x / 256)

/-- A 32-bit word with the bits of `mask` taken from `v` and the rest from `old`. -/
def mergeMask (old v mask : Word) : Word := (old &&& ~~~mask) ||| (v &&& mask)

/-- The element of a list, or `d` past its end. -/
def nth {α : Type} (d : α) (l : List α) (n : Nat) : α := (l[n]?).getD d

/-- A list with its element `n` replaced (unchanged past its end). -/
def setNth {α : Type} (l : List α) (n : Nat) (x : α) : List α := l.set n x

/-- A list with its element `n` changed by `f`. -/
def modNth {α : Type} (l : List α) (n : Nat) (f : α → α) : List α := l.modify n f

/-- The first index in [i, i + n) at which `p` holds. -/
def findIdxFrom (p : Nat → Bool) : Nat → Nat → Option Nat
  | _, 0 => none
  | i, n + 1 => if p i then some i else findIdxFrom p (i + 1) n

/-- `f` applied to 0, 1, …, n − 1 in order. -/
def iter {σ : Type} (n : Nat) (f : Nat → σ → σ) (s : σ) : σ := (List.range n).foldl (fun s i => f i s) s

/-- How many i below n satisfy `p`. -/
def countBelow (n : Nat) (p : Nat → Bool) : Nat := (List.range n).countP p

/-- A number whose bit i is `p i`, for i below n. -/
def bitsOf (n : Nat) (p : Nat → Bool) : Nat := (List.range n).foldl (fun a i => if p i then a + 2 ^ i else a) 0

end Sys2Proof.Machine
end

