-- ==== Sys2Proof/Machine/Num.lean ====
section
/-! DEFINITION. Element types, the one conversion function and the defined dot product (R38 to R83). -/

namespace Sys2Proof.Machine

/-- The thirteen element types of R38. -/
inductive ElemType where
  | fp32 | bf16 | fp16 | e4m3 | e5m2 | e3m2 | e2m3 | e2m1 | int8 | uint8 | int4 | uint4 | int32
deriving DecidableEq, Repr

/-- The type of a 4-bit type code; codes 0xD to 0xF are reserved (R38). -/
def typeOfCode : Nat → Option ElemType
  | 0 => some .fp32 | 1 => some .bf16 | 2 => some .fp16 | 3 => some .e4m3 | 4 => some .e5m2
  | 5 => some .e3m2 | 6 => some .e2m3 | 7 => some .e2m1 | 8 => some .int8 | 9 => some .uint8
  | 10 => some .int4 | 11 => some .uint4 | 12 => some .int32 | _ => none

/-- Bits of an element (R38). -/
def ElemType.bits : ElemType → Nat
  | .fp32 | .int32 => 32
  | .bf16 | .fp16 => 16
  | .e4m3 | .e5m2 | .int8 | .uint8 => 8
  | .e3m2 | .e2m3 => 6
  | .e2m1 | .int4 | .uint4 => 4

/-- A type stored in bit planes (R48). -/
def ElemType.planar (t : ElemType) : Bool := t.bits < 8

/-- An integer type (R46). -/
def ElemType.isInt : ElemType → Bool
  | .int8 | .uint8 | .int4 | .uint4 | .int32 => true
  | _ => false

/-- A type that may carry block scales (R42, R54). -/
def ElemType.mxOk : ElemType → Bool
  | .e4m3 | .e5m2 | .e3m2 | .e2m3 | .e2m1 | .int8 => true
  | _ => false

/-- An exact value: NaN, an infinity, or ± m × 2^e (m = 0 is a signed zero). -/
inductive Val where
  | nan
  | inf (neg : Bool)
  | fin (neg : Bool) (m : Nat) (e : Int)
deriving DecidableEq, Repr

/-- The layout of a float type (R43). -/
structure Fmt where
  man : Nat
  exp : Nat
  bias : Int
  /-- the magnitude bits of the largest finite value -/
  maxBits : Nat
  hasInf : Bool
  hasNan : Bool
  /-- the magnitude bits of the NaN the die produces -/
  nanBits : Nat
deriving DecidableEq, Repr

/-- The float layouts of R43's two tables. -/
def ElemType.fmt : ElemType → Fmt
  | .fp32 => ⟨23, 8, 127, 0x7F7FFFFF, true, true, 0x7FC00000⟩
  | .bf16 => ⟨7, 8, 127, 0x7F7F, true, true, 0x7FC0⟩
  | .fp16 => ⟨10, 5, 15, 0x7BFF, true, true, 0x7E00⟩
  | .e5m2 => ⟨2, 5, 15, 0x7B, true, true, 0x7E⟩
  | .e4m3 => ⟨3, 4, 7, 0x7E, false, true, 0x7F⟩
  | .e3m2 => ⟨2, 3, 3, 0x1F, false, false, 0⟩
  | .e2m3 => ⟨3, 2, 1, 0x1F, false, false, 0⟩
  | .e2m1 => ⟨1, 2, 1, 0x7, false, false, 0⟩
  | _ => ⟨23, 8, 127, 0x7F7FFFFF, true, true, 0x7FC00000⟩

/-- Decoding of a float element by R43. -/
def decodeFloat (f : Fmt) (x : Nat) : Val :=
  let neg := nfld x (f.man + f.exp) (f.man + f.exp) == 1
  let mag := x % 2 ^ (f.man + f.exp)
  let ef := mag >>> f.man
  let mf := mag % 2 ^ f.man
  if f.hasInf && mag == f.maxBits + 1 then .inf neg
  else if f.hasNan && f.maxBits < mag then .nan
  else if ef = 0 then .fin neg mf (1 - f.bias - f.man)
  else .fin neg (mf + 2 ^ f.man) (ef - f.bias - f.man)

/-- The range of an integer type (R46). -/
def ElemType.intMin : ElemType → Int
  | .int8 => -128 | .int4 => -8 | .int32 => -2147483648 | _ => 0

/-- The range of an integer type (R46). -/
def ElemType.intMax : ElemType → Int
  | .int8 => 127 | .uint8 => 255 | .int4 => 7 | .uint4 => 15 | .int32 => 2147483647 | _ => 0

/-- An integer as an exact value. -/
def valOfInt (i : Int) : Val := .fin (i < 0) i.natAbs 0

/-- Decoding of an element's bits, before any scale (R43, R46). -/
def decodeElem (t : ElemType) (x : Nat) : Val :=
  match t with
  | .int8 | .int4 | .int32 => valOfInt (sx x t.bits)
  | .uint8 | .uint4 => valOfInt (x % 2 ^ t.bits : Nat)
  | _ => decodeFloat t.fmt x

/-- A finite non-zero value times 2^k; zeros, infinities and NaN pass unchanged (R56). -/
def Val.scale (v : Val) (k : Int) : Val :=
  match v with
  | .fin n m e => if m = 0 then .fin n 0 0 else .fin n m (e + k)
  | w => w

/-- The element under its block scale: 0xFF is NaN, and MXINT8 carries 2⁻⁶ (R45, R46, R56). -/
def mxScale (t : ElemType) (sc : Nat) (v : Val) : Val :=
  if sc = 0xFF then .nan
  else v.scale ((sc : Int) - 127 - (if t = .int8 then 6 else 0))

/-- Negation of a value. -/
def Val.neg : Val → Val
  | .nan => .nan
  | .inf n => .inf (!n)
  | .fin n m e => .fin (!n) m e

/-- Is this value NaN? -/
def Val.isNan : Val → Bool
  | .nan => true
  | _ => false

/-- Is this value a zero? -/
def Val.isZero : Val → Bool
  | .fin _ 0 _ => true
  | _ => false

/-- The rounding modes (R58); `sr u` carries the 16-bit value of R59. -/
inductive Rnd where
  | rne | rtz | sr (u : Nat)
deriving DecidableEq, Repr

/-- The rounding decision of R58 on integer part `i` and fraction `num / 2^sh`. -/
def roundUp (i num sh : Nat) : Rnd → Bool
  | .rne => decide (2 ^ sh < 2 * num) || (decide (2 * num = 2 ^ sh) && i % 2 == 1)
  | .rtz => false
  | .sr u => decide (2 ^ 16 ≤ num * 2 ^ 16 / 2 ^ sh + u)

/-- `m × 2^k` split into integer part, fraction numerator and fraction width. -/
def splitAt (m : Nat) (k : Int) : Nat × Nat × Nat :=
  if 0 ≤ k then (m <<< k.toNat, 0, 0)
  else (m >>> (-k).toNat, m % 2 ^ (-k).toNat, (-k).toNat)

/-- `m × 2^k` rounded to an integer magnitude. -/
def roundMag (m : Nat) (k : Int) (r : Rnd) : Nat :=
  let (i, num, sh) := splitAt m k
  if roundUp i num sh r then i + 1 else i

/-- The events one conversion or one accumulator step counts (R64, R79). -/
structure NumEv where
  sat : Nat := 0
  special : Nat := 0
  ovf : Nat := 0
  inv : Nat := 0
deriving DecidableEq, Repr

/-- Events of two steps together (R65). -/
def NumEv.add (a b : NumEv) : NumEv := ⟨a.sat + b.sat, a.special + b.special, a.ovf + b.ovf, a.inv + b.inv⟩

/-- The magnitude bits of a rounded float, before overflow is judged: exponent `e` (at least emin) and significand `i`. -/
def magBits (f : Fmt) (e : Int) (i : Nat) : Nat := (e - (1 - f.bias)).toNat * 2 ^ f.man + i

/-- encode_float (R57 to R60): the destination bits and the events. -/
def encodeFloat (t : ElemType) (r : Rnd) (nonsat : Bool) (v : Val) : Nat × NumEv :=
  let f := t.fmt
  let sgn (n : Bool) (x : Nat) : Nat := if n then x + 2 ^ (f.man + f.exp) else x
  match v with
  | .nan => if f.hasNan then (f.nanBits, {}) else (0, { special := 1 })
  | .inf n =>
    if f.hasInf then (sgn n (f.maxBits + 1), {})
    else if t = .e4m3 ∧ nonsat = true then (f.nanBits, { special := 1 })
    else (sgn n f.maxBits, { special := 1 })
  | .fin n m e =>
    if m = 0 then (sgn n 0, {})
    else
      let emin : Int := 1 - f.bias
      let ex := max ((Nat.log2 m : Int) + e) emin
      let b := magBits f ex (roundMag m (e - (ex - f.man)) r)
      if f.maxBits < b then
        if nonsat = true ∧ r ≠ .rtz ∧ f.hasInf = true then (sgn n (f.maxBits + 1), { sat := 1 })
        else if nonsat = true ∧ r ≠ .rtz ∧ t = .e4m3 then (f.nanBits, { sat := 1 })
        else (sgn n f.maxBits, { sat := 1 })
      else (sgn n b, {})

/-- Encoding to an integer type (R61); `lo` is the lower clamp, which MXINT8 sets to −127. -/
def encodeInt (t : ElemType) (lo : Int) (r : Rnd) (v : Val) : Nat × NumEv :=
  let out (i : Int) : Nat := (BitVec.ofInt t.bits i).toNat
  match v with
  | .nan => (0, { special := 1 })
  | .inf n => (out (if n then lo else t.intMax), { special := 1 })
  | .fin n m e =>
    let mag : Int := roundMag m e r
    let i := if n then -mag else mag
    if i < lo then (out lo, { sat := 1 })
    else if t.intMax < i then (out t.intMax, { sat := 1 })
    else (out i, {})

/-- Encoding of one scaled value to a destination type without block scales (R57, R61). -/
def encodeElem (t : ElemType) (r : Rnd) (nonsat : Bool) (v : Val) : Nat × NumEv :=
  if t.isInt then encodeInt t t.intMin r v else encodeFloat t r nonsat v

/-- A conversion word resolved against the core default (R53, R55, R64). -/
structure Cvt where
  ptsExp : Int
  dstMx : Bool
  srcMx : Bool
  nonsat : Bool
  /-- 0 RNE, 1 RTZ, 2 SR -/
  rnd : Nat
  dst : ElemType
  src : ElemType
deriving DecidableEq, Repr

/-- The conversion word of R53 with the defaults of CORE_CVT_CTL; none where R54 makes it invalid (BAD_CVT). -/
def decodeCvt (w ctl : Word) : Option Cvt :=
  match typeOfCode (fld w 7 4), typeOfCode (fld w 3 0) with
  | some d, some s =>
    let dm := bit w 12
    let sm := bit w 11
    if fld w 31 24 = 0x80 ∨ fld w 23 14 ≠ 0 ∨ (dm = true ∧ d.mxOk = false) ∨ (sm = true ∧ s.mxOk = false) then none
    else
      let dflt := fld w 9 8 == 3
      some { ptsExp := if bit w 13 then sx (fld w 31 24) 8 else 0
             dstMx := dm, srcMx := sm
             nonsat := if dflt then bit ctl 2 else bit w 10
             rnd := if dflt then fld ctl 1 0 else fld w 9 8
             dst := d, src := s }
  | _, _ => none

/-- The mode of one element under its SR value `u` (R58, R59). -/
def Cvt.mode (c : Cvt) (u : Nat) : Rnd := if c.rnd = 0 then .rne else if c.rnd = 1 then .rtz else .sr u

/-- Decoding and scaling of one source element (R56). -/
def Cvt.decode (c : Cvt) (sc x : Nat) : Val :=
  (if c.srcMx then mxScale c.src sc (decodeElem c.src x) else decodeElem c.src x).scale c.ptsExp

/-- A conversion that only copies bits, canonicalising NaN (R54). [DEDUCED, log 17] -/
def Cvt.identity (c : Cvt) : Bool := c.src == c.dst && c.srcMx == c.dstMx && c.ptsExp == 0

/-- Bits copied with every NaN made canonical (R44, R54). -/
def canonBits (t : ElemType) (x : Nat) : Nat :=
  if t.isInt then x % 2 ^ t.bits
  else if (decodeFloat t.fmt x).isNan then t.fmt.nanBits else x % 2 ^ t.bits

/-- One element without destination block scales (R52): bits and events. -/
def Cvt.elem (c : Cvt) (sc u x : Nat) : Nat × NumEv :=
  encodeElem c.dst (c.mode u) c.nonsat (c.decode sc x)

/-- emax of R62's step 3. -/
def ElemType.mxEmax : ElemType → Int
  | .e4m3 => 8 | .e5m2 => 15 | .e3m2 => 4 | .e2m3 => 2 | .e2m1 => 2 | _ => 0

/-- a ≤ b on magnitudes m × 2^e. -/
def magLe (m1 : Nat) (e1 : Int) (m2 : Nat) (e2 : Int) : Bool :=
  if e1 ≤ e2 then decide (m1 ≤ m2 <<< (e2 - e1).toNat) else decide (m1 <<< (e1 - e2).toNat ≤ m2)

/-- The largest magnitude of a block as floor(log2), none when every value is a zero (R62). -/
def blockLog (vs : List Val) : Option Int :=
  vs.foldl (fun a v =>
    match v with
    | .fin _ m e => if m = 0 then a else
        let l := (Nat.log2 m : Int) + e
        match a with
        | none => some l
        | some b => some (max b l)
    | _ => a) none

/-- One block of values with their SR values, encoded by R62: elements, scale byte, events. -/
def encodeBlock (c : Cvt) (vus : List (Val × Nat)) : List Nat × Nat × NumEv :=
  let vs := vus.map (·.1)
  if vs.any (fun v => match v with | .fin .. => false | _ => true) then
    (vs.map (fun _ => 0), 0xFF,
      { special := vs.countP (fun v => match v with | .inf _ => true | _ => false) })
  else
    match blockLog vs with
    | none => (vs.map (fun v => match v with
        | .fin true _ _ => if c.dst.isInt then 0 else 2 ^ (c.dst.bits - 1)
        | _ => 0), 0, {})
    | some l =>
      let x := max (-127) (min 127 (l - c.dst.mxEmax))
      let enc := vus.map (fun p =>
        if c.dst = .int8 then encodeInt .int8 (-127) (c.mode p.2) (p.1.scale (6 - x))
        else encodeFloat c.dst (c.mode p.2) c.nonsat (p.1.scale (-x)))
      (enc.map (·.1), (x + 127).toNat, enc.foldl (fun a p => a.add p.2) {})

/-! ### The defined dot product -/

/-- An FP32 value from its bits. -/
def f32 (w : Word) : Val := decodeFloat ElemType.fp32.fmt w.toNat

/-- FP32 bits of a value, RNE, non-saturating; overflow is counted by the caller's rule. -/
def toF32 (v : Val) : Word := BitVec.ofNat 32 (encodeFloat .fp32 .rne true v).1

/-- Did rounding a finite value to FP32 give an infinity? -/
def ovfF32 (v : Val) : Bool :=
  match v with
  | .fin .. => (encodeFloat .fp32 .rne true v).2.sat == 1
  | _ => false

/-- product of R73: the value and whether it counts invalid. -/
def product (a b : Val) : Val × Nat :=
  match a, b with
  | .nan, _ => (.nan, 0)
  | _, .nan => (.nan, 0)
  | .inf s, .inf t => (.inf (s != t), 0)
  | .inf s, .fin t m _ => if m = 0 then (.nan, 1) else (.inf (s != t), 0)
  | .fin s m _, .inf t => if m = 0 then (.nan, 1) else (.inf (s != t), 0)
  | .fin s m e, .fin t n f => (.fin (s != t) (m * n) (e + f), 0)

/-- group_sum of R73 on exact products. -/
def groupSum (ps : List Val) : Val × Nat :=
  if ps.any Val.isNan then (.nan, 0)
  else
    let pos := ps.any (· == .inf false)
    let neg := ps.any (· == .inf true)
    if pos ∧ neg then (.nan, 1)
    else if pos then (.inf false, 0)
    else if neg then (.inf true, 0)
    else
      match blockLog ps with
      | none => (.fin (ps.all (fun p => match p with | .fin n _ _ => n | _ => false)) 0 0, 0)
      | some l =>
        let lu := l - 30
        let s : Int := ps.foldl (fun s p =>
          match p with
          | .fin n m e => let q : Int := (splitAt m (e - lu)).1
                          if n then s - q else s + q
          | _ => s) 0
        if s = 0 then (.fin false 0 0, 0) else (.fin (s < 0) s.natAbs lu, 0)

/-- The exact sum of two finite values; an exact zero is +0 unless both are −0 (R73). -/
def addFin (n1 : Bool) (m1 : Nat) (e1 : Int) (n2 : Bool) (m2 : Nat) (e2 : Int) : Val :=
  if m1 = 0 ∧ m2 = 0 then .fin (n1 && n2) 0 0
  else
    let e := if m1 = 0 then e2 else if m2 = 0 then e1 else min e1 e2
    let a : Int := (splitAt m1 (e1 - e)).1
    let b : Int := (splitAt m2 (e2 - e)).1
    let s := (if n1 then -a else a) + (if n2 then -b else b)
    if s = 0 then .fin false 0 0 else .fin (s < 0) s.natAbs e

/-- The exact sum of R73's fp32_add before rounding, and whether it counts invalid. -/
def exactAdd (c g : Val) : Val × Nat :=
  match c, g with
  | .nan, _ => (.nan, 0)
  | _, .nan => (.nan, 0)
  | .inf s, .inf t => if s = t then (.inf s, 0) else (.nan, 1)
  | .inf s, .fin .. => (.inf s, 0)
  | .fin .., .inf t => (.inf t, 0)
  | .fin n1 m1 e1, .fin n2 m2 e2 => (addFin n1 m1 e1 n2 m2 e2, 0)

/-- fp32_add of R73 with an exact second operand. -/
def fp32Add (c : Word) (g : Val) : Word × NumEv :=
  let (v, i) := exactAdd (f32 c) g
  (toF32 v, { inv := i, ovf := b2n (ovfF32 v) })

/-- accumulate_group of R73: the accumulator and the products of one group; an ∞ × 0 product has counted when it was formed (R79). -/
def accGroupFloat (c : Word) (ps : List Val) : Word × NumEv :=
  let (g, i) := groupSum ps
  let (r, ev) := fp32Add c g
  (r, { ev with inv := ev.inv + i })

/-- The integer of a finite value with a non-negative exponent (a plain integer product). -/
def Val.toInt : Val → Int
  | .fin n m e => let a : Int := (splitAt m e).1
                  if n then -a else a
  | _ => 0

/-- int_accumulate_group of R76. -/
def accGroupInt (c : Word) (ps : List Val) : Word × NumEv :=
  let v := c.toInt + ps.foldl (fun a p => a + p.toInt) 0
  if 2147483647 < v then (BitVec.ofNat 32 0x7FFFFFFF, { ovf := 1 })
  else if v < -2147483648 then (BitVec.ofNat 32 0x80000000, { ovf := 1 })
  else (BitVec.ofInt 32 v, {})

/-- The strict fused multiply-add of R77 on exact operands. -/
def fmaStrict (a b : Val) (c : Word) : Word × NumEv :=
  let (p, i) := product a b
  let (r, ev) := fp32Add c p
  (r, { ev with inv := ev.inv + i })

/-- A vector FP32 result with canonical NaN: the rounded sum, and its events (R126 uses R73's additions). -/
def fAdd (a b : Word) : Word × NumEv := fp32Add a (f32 b)

/-- A single IEEE multiplication rounded to nearest, NaN canonical. -/
def fMul (a b : Word) : Word × NumEv :=
  let (v, i) := product (f32 a) (f32 b)
  (toF32 v, { inv := i, ovf := b2n (ovfF32 v) })

/-- A single IEEE fused multiply-add a × b + c. -/
def fFma (a b c : Word) : Word × NumEv := fmaStrict (f32 a) (f32 b) c

/-- Ordering of two non-NaN values: is a < b (zeros are equal)? -/
def Val.lt (a b : Val) : Bool :=
  match a, b with
  | .nan, _ => false
  | _, .nan => false
  | .inf s, .inf t => s && !t
  | .inf s, .fin .. => s
  | .fin .., .inf t => !t
  | .fin s m e, .fin t n f =>
    if m = 0 ∧ n = 0 then false
    else if m = 0 then !t
    else if n = 0 then s
    else if s ∧ !t then true
    else if !s ∧ t then false
    else if s then !(magLe m e n f) else !(magLe n f m e)

end Sys2Proof.Machine
end

