-- ==== Sys2Proof/Machine/Table.lean ====
section
/-! DEFINITION. Reading and writing a sparse table in its canonical form. -/

namespace Sys2Proof.Machine

/-- What key `k` holds: its entry, or `d` where it is not listed. [DESIGN CHOICE, log 11] -/
def tget {α : Type} (d : α) : Tbl α → Nat → α
  | [], _ => d
  | (j, v) :: t, k => if k = j then v else tget d t k

/-- The table with every entry whose key satisfies `p` taken away. -/
def tdrop {α : Type} (t : Tbl α) (p : Nat → Bool) : Tbl α := t.filter (fun e => !p e.1)

/-- An entry put before the first of a greater key. -/
def tput {α : Type} : Tbl α → Nat → α → Tbl α
  | [], k, v => [(k, v)]
  | (j, w) :: t, k, v => if k < j then (k, v) :: (j, w) :: t else (j, w) :: tput t k v

/-- The table with key `k` holding `v`; writing what an unlisted key reads as takes the entry away. -/
def tset {α : Type} [DecidableEq α] (d : α) (t : Tbl α) (k : Nat) (v : α) : Tbl α :=
  if v = d then tdrop t (fun j => j == k) else tput (tdrop t (fun j => j == k)) k v

/-- The table with key `k` changed by `f`. -/
def tmod {α : Type} [DecidableEq α] (d : α) (t : Tbl α) (k : Nat) (f : α → α) : Tbl α :=
  tset d t k (f (tget d t k))

/-- The keys that are listed, each once. -/
def tkeys {α : Type} : Tbl α → List Nat
  | [] => []
  | (j, _) :: t => if (tkeys t).contains j then tkeys t else j :: tkeys t

/-- The canonical form: keys strictly rising from `lo`, and no entry equal to the default. -/
def tblWf {α : Type} [DecidableEq α] (d : α) : Nat → Tbl α → Bool
  | _, [] => true
  | lo, (j, v) :: t => decide (lo ≤ j) && decide (v ≠ d) && tblWf d (j + 1) t

end Sys2Proof.Machine
end

