-- ==== Sys2Proof/Machine/CoreState.lean ====
section
/-! DEFINITION. The state of one core and of one router, as plain data. -/

namespace Sys2Proof.Machine

/-- The error state of one 64-bit word's codeword (R162, R165): clean, check symbols that differ from those of
the stored data by `d`, or the check pattern that always decodes as uncorrectable. [DESIGN CHOICE, log 29] -/
inductive WErr where
  | clean
  | disc (d : BitVec 12)
  | poison
deriving DecidableEq, Repr

/-- One memory bank (R160, R161): off, waiting to wake since a cycle, waking since a cycle, on, woken at a cycle with its bit 0 so that it
serves what waits on it, or switching off (and to wake again after it). -/
inductive Bank where
  | off
  | queued (at_ : Nat)
  | waking (since : Nat)
  | on
  | last (at_ : Nat)
  | stopping (again : Bool)
deriving DecidableEq, Repr

/-- A flit: its header word, its eight payload words, the error state of each of the nine codewords, header 0 (R206), and,
on a flit that a reduction tree formed, the source cores and endpoints (core × 16 + endpoint) of the flits it combines, and,
on a flit that goes to another die under a header that no longer says so, the destination and source die of its link flit and
the DEST it carries there (R327, R328), and whether it is a response to the Cellar or to die control (R549).
[DESIGN CHOICE, log 53] -/
structure Flit where
  hdr : BitVec 64
  pay : List (BitVec 64)
  err : Tbl WErr
  leaves : List Nat
  transit : Option (DieAddr × DieAddr × Nat)
  port : Bool
deriving DecidableEq, Repr

/-- The accumulator kind of a block (R69, R86). -/
inductive AccKind where
  | fp32 | int32
deriving DecidableEq, Repr

/-- An accumulator block: its kind (none when empty), its elements, and for each element the products of its open group, oldest first; no
list at all when no element has an open group (R71, R86). -/
structure AccBlock where
  kind : Option AccKind
  els : List Word
  grp : List (List Val)
deriving DecidableEq, Repr

/-- An empty block (R86). -/
def AccBlock.empty : AccBlock := ⟨none, [], []⟩

/-- A filled operand store: the type it was read as, whether it was read under any scale, and its decoded values
(A window: 16 rows of K; B slot: K rows of 8; X slot: one row of 16). `typ = none` is empty (R86). -/
structure Operand where
  typ : Option ElemType
  scaled : Bool
  rows : List (List Val)
deriving DecidableEq, Repr

/-- An empty operand store. -/
def Operand.empty : Operand := ⟨none, false, []⟩

/-- The fields of MXCFG or MVCFG (R89). -/
structure MxCfg where
  a : ElemType
  b : ElemType
  amx : Bool
  bmx : Bool
  apts : Bool
  bpts : Bool
  aexp : Int
  bexp : Int
  stride : Nat
deriving DecidableEq, Repr

/-- The reset configuration (R86). -/
def MxCfg.reset : MxCfg := ⟨.e4m3, .e4m3, false, false, false, false, 0, 0, 0⟩

/-- An activity ramp (R114): level, first cycle of the running 8-cycle period, and whether an operation was ready in it. -/
structure Ramp where
  level : Nat
  start : Nat
  ready : Bool
deriving DecidableEq, Repr

/-- The state of R86, with the cycle from which each block, the array and the path are free (R110), the cycle in which the last drain of the
matrix queue (0) and of the vector-path queue (1) has been written (R103, R110), and the ramps (R114).
Blocks 0 to 15 are ACC0 to ACC15 and 16 to 31 are YB0 to YB15; slots 0 and 1 are B0 and B1, 2 and 3 are X0 and X1. -/
structure Matrix where
  blk : Tbl AccBlock
  win : Tbl Operand
  slot : Tbl Operand
  ascale : Tbl (List Nat)
  bscale : List Nat
  wscale : Tbl (List Nat)
  xscale : Tbl Nat
  cfgM : MxCfg
  cfgV : MxCfg
  rampM : Ramp
  rampV : Ramp
  blkFree : Tbl Nat
  arrFree : Nat
  pathFree : Nat
  drained : Tbl Nat
deriving DecidableEq, Repr

/-- The matrix state a core reset sets (R86). -/
def Matrix.reset : Matrix :=
  { blk := [], win := [], slot := [], ascale := [], bscale := List.replicate 8 0x7F, wscale := [], xscale := []
    cfgM := .reset, cfgV := .reset, rampM := ⟨0, 0, false⟩, rampV := ⟨0, 0, false⟩, blkFree := [], arrFree := 0, pathFree := 0, drained := [] }

/-- The vector engine's two pipes (R138, R139): the cycle from which the next instruction, the arithmetic pipe and the load/store pipe
accept; the cycle in which each pipe's last work completes; for each vector register the cycle from which a reader is accepted,
and from which no read and no write of it is outstanding; and for each scalar register (16 × context + number) the cycle in
which the last engine write to it completes (R178). -/
structure VePipe where
  next : Nat
  arFree : Nat
  lsFree : Nat
  arDone : Nat
  lsDone : Nat
  ready : Tbl Nat
  readEnd : Tbl Nat
  writeEnd : Tbl Nat
  sDone : Tbl Nat
deriving DecidableEq, Repr

/-- Both pipes free and nothing outstanding. -/
def VePipe.reset : VePipe := ⟨0, 0, 0, 0, 0, [], [], [], []⟩

/-- What the events of a cycle have done to a register that a read or a write may clear (R17): the cycle, the register before them, and
the counts they added or the bits they set. [DESIGN CHOICE, log 119] -/
structure Fresh where
  at_ : Nat
  before : Word
  added : Word
deriving DecidableEq, Repr

/-- No event. -/
def Fresh.none : Fresh := ⟨0, 0, 0⟩

/-- The state of a context (R190). -/
inductive CtxState where
  | empty | ready | running | draining | stopped | faulted
deriving DecidableEq, Repr

/-- An active loop: its counter and the first and last word of its body (R184). -/
structure Loop where
  ln : Nat
  first : Nat
  last : Nat
deriving DecidableEq, Repr

/-- What a context holds beside its registers (R170, R183, R187 to R191). `fbCnt` is each entry's unheld count and
`fbPend` the timed-out entries whose firing waits, in order (R189). -/
structure Ctx where
  state : CtxState
  pc : Nat
  npc : Nat
  blk : Nat
  inblk : Bool
  stopping : Bool
  sr : BitVec 16
  sc : BitVec 16
  sk : BitVec 8
  ovr : BitVec 8
  loops : List Loop
  tsHi : Word
  fbCnt : Tbl Nat
  fbPend : List Nat
deriving DecidableEq, Repr

/-- A context after reset: EMPTY, masks all ones (R170, R190). -/
def Ctx.reset : Ctx :=
  ⟨.empty, 0, 0, 0, false, false, 0xFFFF, 0xFFFF, 0xFF, 0, [], 0, [], []⟩

/-- An instruction in a queue: its word, context, word address and issue serial, the predicate and shape copies of R177,
the cycle it reached the head of its queue, whether it has expanded (with the address it formed, or, of a remote wait or claim, 4096 × die
+ core of its target), and how many of its operations or flits are done. -/
structure QEntry where
  word : BitVec 64
  ctx : Nat
  pc : Nat
  serial : Nat
  p : BitVec 16
  q : BitVec 16
  sr : BitVec 16
  sc : BitVec 16
  sk : BitVec 8
  headAt : Option Nat
  started : Bool
  addr : Int
  done : Nat
deriving DecidableEq, Repr

/-- The last-signaller record of a semaphore (R276, R288). -/
structure LSig where
  kind : Nat
  sdie : DieAddr
  score : CoreCode
  ts : BitVec 64
deriving DecidableEq, Repr

/-- A physical semaphore (R271, R286, R288). For the order of R276: the cycle of its last grant, signal or re-initialisation, the value
before that cycle, what the cycle's grants have taken, the sum and the number of its signals, and the cycle of its last
re-initialisation. -/
structure Sem where
  value : Nat
  orph : Bool
  satf : Bool
  lsig : Option LSig
  at_ : Option Nat
  start : Nat
  taken : Nat
  sum : Nat
  nsig : Nat
  initAt : Option Nat
deriving DecidableEq, Repr

/-- A semaphore after reset. -/
def Sem.reset : Sem := ⟨0, false, false, none, none, 0, 0, 0, 0, none⟩

/-- A remote-wait entry (R278, R288); `limit` is the cycle in which its timeout expires. -/
structure RWait where
  cons : Bool
  cmp : Bool
  phys : Nat
  tag : Nat
  thresh : Nat
  sdie : DieAddr
  score : CoreCode
  limit : Option Nat
deriving DecidableEq, Repr

/-- A token bucket: its tokens in 1/1024 flit at the end of cycle `at_` (R220). -/
structure Shaper where
  tok : Nat
  at_ : Nat
deriving DecidableEq, Repr

/-- A flit held by a sink endpoint: what R215 and R233 need of its header, the payload with its errors, the cycle and
timestamp of its delivery, whether a gate holds it, and the AM line that holds it when it is in the spill ring. -/
structure EpFlit where
  tail : Bool
  mseq : BitVec 16
  pay : List (BitVec 64)
  err : Tbl WErr
  cyc : Nat
  ts : BitVec 64
  held : Bool
  spill : Option Nat
deriving DecidableEq, Repr

/-- What a source endpoint sends (R217, R233): an SSEND's message, or the message a steering unit forwards. -/
inductive Sender where
  | ssend
  | unit (u : Nat)
deriving DecidableEq, Repr

/-- A stream endpoint beside its registers (R214 to R231): held flits oldest first, expected or next flit index, the number of
the message an SSEND has in flight and the acknowledgements received for it, the sender of a message that has begun and not
ended, the starvation discard, the spill-ring write position, its shaper, and how many flits that an earlier cycle brought have been
taken in a cycle, with that cycle plus 1 (R188). -/
structure Endpoint where
  q : List EpFlit
  fidx : Nat
  sent : Nat
  acks : Nat
  cur : Option Sender
  starved : Bool
  spillNext : Nat
  shaper : Shaper
  took : Nat × Nat
deriving DecidableEq, Repr

/-- An endpoint after reset. -/
def Endpoint.reset : Endpoint := ⟨[], 0, 0, 0, none, false, 0, ⟨0, 0⟩, (0, 0)⟩

/-- A steering unit's running state (R233, R238): stopped, the last tag, and the flits it has taken and still has to offer,
with the output endpoint and the cycle from which they may be offered. -/
structure Steer where
  stopped : Bool
  ltag : BitVec 16
  out : List EpFlit
  ep : Nat
  ready : Nat
deriving DecidableEq, Repr

/-- A steering unit after reset. -/
def Steer.reset : Steer := ⟨false, 0, [], 0, 0⟩

/-- A message of Service form that a DMA channel has to inject (R245): a read request, or a write message, as flits with their error states
that travel on VC1; `lines` counts its lines and `first` is the place of its first line among the transfer's source accesses, `addr` is the
address the plan gave and `dest` the one it goes to (R346); `sent` counts the flits that have been admitted. -/
structure DmaMsg where
  read : Bool
  lines : Nat
  first : Nat
  addr : BitVec 64
  dest : BitVec 64
  flits : List (List (BitVec 64) × Tbl WErr)
  tag : Nat
  sent : Nat
deriving DecidableEq, Repr

/-- A transfer a channel runs (R240 to R242, R260): the copy of the descriptor, the adjustments, the conversion, seed, tweak and span read at
acceptance, the entries of the index list, the source lines still to ask for and how many have been asked for, the requests outstanding, the
lines that have returned, by source access, with the words of them that are uncorrectable, whether the destination elements have been formed,
the write messages still to inject, and the acknowledgements outstanding: message number and address. -/
structure Run where
  ctx : Nat
  slot : Nat
  pc : Nat
  serial : Nat
  desc : List Word
  sad : Nat
  sa : Int
  dad : Nat
  da : Int
  list : List (Int × Int)
  cvt : Cvt
  seed : BitVec 64
  tweak : Word
  span : Word
  toRead : List Nat
  asked : Nat
  reading : List DmaMsg
  got : Tbl (List Byte)
  bad : Tbl Bool
  formed : Bool
  toWrite : List DmaMsg
  acks : List (Nat × BitVec 64)
  nextTag : Nat
deriving DecidableEq, Repr

/-- A DMA channel (R240, R267): its transfer, its shaper, and the context and slot of its running or last transfer. -/
structure Channel where
  run : Option Run
  shaper : Shaper
  ctx : Nat
  slot : Nat
deriving DecidableEq, Repr

/-- A channel after reset. -/
def Channel.reset : Channel := ⟨none, ⟨0, 0⟩, 0, 0⟩

/-- An engine and its ballast cell (R395, R396): idle with the cell released, waiting for a start grant, active (with the
cycle of the grant or of the last accepted instruction), or idle with the cell engaged since a cycle. -/
inductive Ballast where
  | released
  | waiting
  | active (last : Nat)
  | engaged (since : Nat)
deriving DecidableEq, Repr

/-- A context switch in progress (R192): the old context, the target, whether a register write asked for it, and the cycle reconfiguration
began once the old context has drained. -/
structure Switch where
  old : Nat
  target : Nat
  preempt : Bool
  draining : Bool
  reconf : Option Nat
deriving DecidableEq, Repr

/-- The debug state of a core (R506, R507): a halt pending with its cause, halted with its cause, context and held entry,
one evaluation released, the block of a step running. -/
structure CoreDbg where
  pend : Bool
  pendCause : Nat
  halted : Bool
  cause : Nat
  hctx : Nat
  next : Nat
  step : Bool
  stepRun : Bool
deriving DecidableEq, Repr

/-- The debug state after a core reset (R509). -/
def CoreDbg.reset : CoreDbg := ⟨false, 0, false, 0, 0, 0, false, false⟩

/-- A line access that a port has accepted and its bank has still to serve (R146 to R148): the port, the memory, bank and row, whether it
writes, the cycle from which it asks, the arbitrations it has lost in succession, and whose it is: 1 to 4 a DMA channel plus 1, 5 and 6 a drain of the matrix and the
vector-path queue, 16 a VST, 32 + r a VLD into register r, 64 + b a matrix operation on block b, 0 another's.
[DESIGN CHOICE, log 116] -/
structure PortReq where
  port : Nat
  mem : Nat
  bank : Nat
  row : Nat
  write : Bool
  from_ : Nat
  lost : Nat
  tag : Nat
deriving DecidableEq, Repr

/-- A 64-bit word as it stood before the writes of a cycle (R149): the cycle plus 1, the port that wrote first, its data and its error state. -/
structure OldWord where
  at_ : Nat
  port : Nat
  data : BitVec 64
  err : WErr
deriving DecidableEq, Repr

/-- No word. -/
def OldWord.none : OldWord := ⟨0, 0, 0, .clean⟩

/-- One core's region-domain state. Registers that hold what was written live in `regs`, keyed by their byte offset in the
core register block (window offset − 0x8_0000). Memory bytes are keyed by memory, bank, row and byte (R144, R481). `sOld` holds, for scalar
register 16 × context + n, the first cycle that sees its last write and the value before it (R178, R188); `caps`, for each capture slot, the
cycle plus 1 of its last captures and their maximum (R137); `stale`, the replies to come for remote waits (queue) and claims (queue + 8) that
have ended, with their targets (R199, R285); `reen`, the first cycle in which each unit that has been re-enabled accepts issue (R201). -/
structure Core where
  regs : Tbl Word
  fresh : Tbl Fresh
  mem : Tbl Byte
  werr : Tbl WErr
  ceWb : List Nat
  old : Tbl OldWord
  ports : List PortReq
  banks : Tbl Bank
  patrolAt : Tbl Nat
  patrolRow : Tbl Nat
  istore : Tbl (BitVec 64)
  mx : Matrix
  v : Tbl (List Word)
  ve : VePipe
  queues : Tbl (List QEntry)
  serial : Nat
  sync0 : Option QEntry
  sOld : Tbl (Nat × Word)
  caps : Tbl (Nat × Word)
  stale : List (Nat × Int)
  reen : Tbl Nat
  issueAt : Nat
  ctxs : Tbl Ctx
  sw : Option Switch
  units : Tbl Nat
  sems : Tbl Sem
  rwaits : Tbl (Option RWait)
  wcOrph : Tbl Bool
  barArr : Tbl Bool
  eps : Tbl Endpoint
  steers : Tbl Steer
  gateRel : Tbl (Nat × Bool)
  hall : List Flit
  hallIn : Nat
  hallOut : Nat
  resp : List Flit
  svc : List Flit
  epTurn : Nat
  injAt : Option Nat
  rx : List Flit
  held : List (List Flit)
  chans : Tbl Channel
  defFree : Nat
  ballast : Tbl Ballast
  spanArr : Bool
  tdev : Bool
  quiet : Nat
  ceWin : Nat
  ceCnt : Nat
  ceRaised : Bool
  dbg : CoreDbg
deriving DecidableEq, Repr

/-- A core after reset (R170, R437): every register at its reset value, every context EMPTY, every bank off.
[DESIGN CHOICE, log 9] [DESIGN CHOICE, log 10] -/
def Core.reset : Core :=
  { regs := [], fresh := [], mem := [], werr := [], ceWb := [], old := [], ports := [], banks := [], patrolAt := [], patrolRow := [], istore := []
    mx := .reset, v := [], ve := .reset, queues := [], serial := 0, sync0 := none, sOld := [], caps := [], stale := [], reen := [], issueAt := 0, ctxs := [], sw := none, units := [], sems := []
    rwaits := [], wcOrph := [], barArr := [], eps := [], steers := [], gateRel := [], hall := [], hallIn := 0, hallOut := 0, resp := [], svc := []
    epTurn := 0, injAt := none, rx := [], held := [], chans := [], defFree := 0, ballast := [], spanArr := false, tdev := false
    quiet := 0, ceWin := 0, ceCnt := 0, ceRaised := false, dbg := .reset }

/-- A flit waiting in an output queue of a router: its virtual channel, input port, arrival cycle and the flit (R208, R209). -/
structure OutFlit where
  vc : Nat
  inp : Nat
  at_ : Nat
  flit : Flit
deriving DecidableEq, Repr

/-- A flit held in the fork buffer of a router input: the input, the branches whose copies it still holds, and the flit (R224).
[DESIGN CHOICE, log 51] -/
structure ForkFlit where
  inp : Nat
  outs : List Nat
  flit : Flit
deriving DecidableEq, Repr

/-- A child flit waiting at a combining router: its tree, the child's port code and the flit (R227). -/
structure RedFlit where
  tree : Nat
  port : Nat
  flit : Flit
deriving DecidableEq, Repr

/-- One router, in the mesh domain (R208 to R210, R224 to R229, R239): its registers, keyed by block offset; the flits in
each input register; each output's queue, round-robin pointer, the cycle of its last grant and of its last aged grant; the slots
that came free in a cycle, whose credits return in the next (R210), by output for VC1 and by 8 × (VC + 1) + input for VC0 and VC2;
flits held at forks; child flits waiting to be combined; the Hallway shaper's bucket (R211); and the span shadow of its core, as data words
of R162 with the error state of their codewords (R354).
Ports: 0 local, 1 N, 2 E, 3 S, 4 W, 5 Porch, 6 Cellar. -/
structure Router where
  regs : Tbl Word
  fresh : Tbl Fresh
  inq : Tbl (List Flit)
  outq : Tbl (List OutFlit)
  ptr : Tbl Nat
  granted : Tbl Nat
  aged : Tbl (Option Nat)
  gone : Tbl (Nat × Nat)
  fork : List ForkFlit
  red : List RedFlit
  shaper : Shaper
  shadow : Option (List (BitVec 64 × WErr))
deriving DecidableEq, Repr

/-- A router after reset. [DESIGN CHOICE, log 9] -/
def Router.reset : Router :=
  { regs := [], fresh := [], inq := [], outq := [], ptr := [], granted := [], aged := [], gone := [], fork := [], red := [], shaper := ⟨4096, 0⟩
    shadow := none }

/-- What a core raises to the die in one command: a fault report, a dirty mark, an arrival on a barrier channel, the
orphaning of a participation, an OVER flag, and the die-wide totals of R498. -/
inductive Ev where
  | fault (sev : Nat) (st : Status) (ctx : Nat)
  | dirty (st : Status)
  | barArrive (ch : Nat)
  | barOrphan (ch : Nat)
  | timeDep
  | ceMem (n : Nat)
  | ueMem (n : Nat)
  | clash (n : Nat)
  | noRoute
  | inject (port : Nat) (f : Flit)
  | shaped (b : Shaper)
deriving DecidableEq, Repr

/-- What a core reads of the die around it in one command. -/
structure Env where
  cyc : Nat
  ts : BitVec 64
  die : DieAddr
  code : CoreCode
  width : Nat
  bypCol : Nat
  smallPantry : Bool
  elig : Bool
  wrap : Bool
  det : Bool
  duty : Nat
  span : Word
  absentRows : List Nat
  dieRegs : Tbl Word
deriving DecidableEq, Repr

end Sys2Proof.Machine
end

