-- ==== Sys2Proof/Machine/Status.lean ====
section
/-! DEFINITION. The status codes of R496, each with its 16-bit value. -/

namespace Sys2Proof.Machine

/-- OK (R496). -/
def St.OK : Status := 0x0000#16
/-- MISALIGNED (R496). -/
def St.MISALIGNED : Status := 0x0001#16
/-- NO_CORE (R496). -/
def St.NO_CORE : Status := 0x0002#16
/-- CTX_STATE (R496). -/
def St.CTX_STATE : Status := 0x0003#16
/-- SVC_BAD (R496). -/
def St.SVC_BAD : Status := 0x0004#16
/-- BAD_TYPE (R496). -/
def St.BAD_TYPE : Status := 0x0101#16
/-- BAD_TYPE_PAIR (R496). -/
def St.BAD_TYPE_PAIR : Status := 0x0102#16
/-- BAD_CVT (R496). -/
def St.BAD_CVT : Status := 0x0103#16
/-- ACC_KIND (R496). -/
def St.ACC_KIND : Status := 0x0104#16
/-- MX_AMODE (R496). -/
def St.MX_AMODE : Status := 0x0105#16
/-- MX_EMPTY (R496). -/
def St.MX_EMPTY : Status := 0x0106#16
/-- MX_WINDOW (R496). -/
def St.MX_WINDOW : Status := 0x0107#16
/-- MX_WIDTH (R496). -/
def St.MX_WIDTH : Status := 0x0108#16
/-- VE_FN (R496). -/
def St.VE_FN : Status := 0x0109#16
/-- VE_AMODE (R496). -/
def St.VE_AMODE : Status := 0x010A#16
/-- HND_INVALID (R496). -/
def St.HND_INVALID : Status := 0x0201#16
/-- HND_RO (R496). -/
def St.HND_RO : Status := 0x0202#16
/-- MEM_RANGE (R496). -/
def St.MEM_RANGE : Status := 0x0203#16
/-- HND_OOB (R496). -/
def St.HND_OOB : Status := 0x0204#16
/-- WIN_DENIED (R496). -/
def St.WIN_DENIED : Status := 0x0205#16
/-- BANK_OFF (R496). -/
def St.BANK_OFF : Status := 0x0206#16
/-- MEM_UE (R496). -/
def St.MEM_UE : Status := 0x0207#16
/-- CE_STORM (R496). -/
def St.CE_STORM : Status := 0x0208#16
/-- SEQ_OP (R496). -/
def St.SEQ_OP : Status := 0x0301#16
/-- SEQ_FN (R496). -/
def St.SEQ_FN : Status := 0x0302#16
/-- SEQ_LOOP (R496). -/
def St.SEQ_LOOP : Status := 0x0303#16
/-- SEQ_PC (R496). -/
def St.SEQ_PC : Status := 0x0304#16
/-- FB_TIMEOUT (R496). -/
def St.FB_TIMEOUT : Status := 0x0305#16
/-- SHAPE_OVER (R496). -/
def St.SHAPE_OVER : Status := 0x0306#16
/-- UNIT_DISABLED (R496). -/
def St.UNIT_DISABLED : Status := 0x0307#16
/-- UNIT_FORCED (R496). -/
def St.UNIT_FORCED : Status := 0x0308#16
/-- STRM_MODE (R496). -/
def St.STRM_MODE : Status := 0x0401#16
/-- STRM_OWNER (R496). -/
def St.STRM_OWNER : Status := 0x0402#16
/-- STRM_ALIGN (R496). -/
def St.STRM_ALIGN : Status := 0x0403#16
/-- STRM_SEQ (R496). -/
def St.STRM_SEQ : Status := 0x0404#16
/-- JOIN_STARVED (R496). -/
def St.JOIN_STARVED : Status := 0x0405#16
/-- STEER_TAG (R496). -/
def St.STEER_TAG : Status := 0x0406#16
/-- RED_TAG (R496). -/
def St.RED_TAG : Status := 0x0407#16
/-- MESH_UE (R496). -/
def St.MESH_UE : Status := 0x0408#16
/-- DMA_MODE (R496). -/
def St.DMA_MODE : Status := 0x0501#16
/-- DMA_PERM (R496). -/
def St.DMA_PERM : Status := 0x0502#16
/-- DMA_ALIGN (R496). -/
def St.DMA_ALIGN : Status := 0x0503#16
/-- DMA_PLANE (R496). -/
def St.DMA_PLANE : Status := 0x0504#16
/-- DMA_RANGE (R496). -/
def St.DMA_RANGE : Status := 0x0505#16
/-- DMA_MX (R496). -/
def St.DMA_MX : Status := 0x0506#16
/-- DMA_GATHER (R496). -/
def St.DMA_GATHER : Status := 0x0507#16
/-- DMA_OVERLAP (R496). -/
def St.DMA_OVERLAP : Status := 0x0508#16
/-- DMA_INVALID (R496). -/
def St.DMA_INVALID : Status := 0x0509#16
/-- DMA_OOB (R496). -/
def St.DMA_OOB : Status := 0x050A#16
/-- SEM_MAP (R496). -/
def St.SEM_MAP : Status := 0x0601#16
/-- SEM_UNMAPPED (R496). -/
def St.SEM_UNMAPPED : Status := 0x0602#16
/-- SEM_SAT (R496). -/
def St.SEM_SAT : Status := 0x0603#16
/-- SEM_TIMEOUT (R496). -/
def St.SEM_TIMEOUT : Status := 0x0604#16
/-- SEM_WTFULL (R496). -/
def St.SEM_WTFULL : Status := 0x0605#16
/-- ORPHANED (R496). -/
def St.ORPHANED : Status := 0x0606#16
/-- PREEMPTED (R496). -/
def St.PREEMPTED : Status := 0x0607#16
/-- WC_OFF (R496). -/
def St.WC_OFF : Status := 0x0608#16
/-- BAR_OFF (R496). -/
def St.BAR_OFF : Status := 0x0609#16
/-- BAR_TWICE (R496). -/
def St.BAR_TWICE : Status := 0x060A#16
/-- KEEP_RANGE (R496). -/
def St.KEEP_RANGE : Status := 0x0701#16
/-- IMG_SECTION (R496). -/
def St.IMG_SECTION : Status := 0x0702#16
/-- LINK_TRAIN (R496). -/
def St.LINK_TRAIN : Status := 0x0801#16
/-- LINK_ROLE (R496). -/
def St.LINK_ROLE : Status := 0x0802#16
/-- LINK_CHANGED (R496). -/
def St.LINK_CHANGED : Status := 0x0803#16
/-- LINK_DOWN (R496). -/
def St.LINK_DOWN : Status := 0x0804#16
/-- LINK_REPLAY (R496). -/
def St.LINK_REPLAY : Status := 0x0805#16
/-- LINK_ABSENT (R496). -/
def St.LINK_ABSENT : Status := 0x0806#16
/-- LINK_SHORT (R496). -/
def St.LINK_SHORT : Status := 0x0807#16
/-- ADDR_UNSET (R496). -/
def St.ADDR_UNSET : Status := 0x0808#16
/-- ADDR_SET (R496). -/
def St.ADDR_SET : Status := 0x0809#16
/-- NO_ROUTE (R496). -/
def St.NO_ROUTE : Status := 0x080A#16
/-- FS_MISS (R496). -/
def St.FS_MISS : Status := 0x080B#16
/-- MEM_ADDR (R496). -/
def St.MEM_ADDR : Status := 0x080C#16
/-- HUB_ERR (R496). -/
def St.HUB_ERR : Status := 0x080D#16
/-- MEM_TIMEOUT (R496). -/
def St.MEM_TIMEOUT : Status := 0x080E#16
/-- XPORT_FAIL (R496). -/
def St.XPORT_FAIL : Status := 0x080F#16
/-- XPORT_WIN (R496). -/
def St.XPORT_WIN : Status := 0x0810#16
/-- ATTIC_RANGE (R496). -/
def St.ATTIC_RANGE : Status := 0x0901#16
/-- SPAN_PLAN (R496). -/
def St.SPAN_PLAN : Status := 0x0902#16
/-- SPAN_QUIET (R496). -/
def St.SPAN_QUIET : Status := 0x0903#16
/-- SPAN_WDOG (R496). -/
def St.SPAN_WDOG : Status := 0x0904#16
/-- SPAN_SWROLL (R496). -/
def St.SPAN_SWROLL : Status := 0x0905#16
/-- SPAN_SWSTOP (R496). -/
def St.SPAN_SWSTOP : Status := 0x0906#16
/-- SPAN_PEER (R496). -/
def St.SPAN_PEER : Status := 0x0907#16
/-- CORE_FAILED (R496). -/
def St.CORE_FAILED : Status := 0x0908#16
/-- LOG_BAD (R496). -/
def St.LOG_BAD : Status := 0x0909#16
/-- LOG_LOST (R496). -/
def St.LOG_LOST : Status := 0x090A#16
/-- LOG_TIMEOUT (R496). -/
def St.LOG_TIMEOUT : Status := 0x090B#16
/-- GUAR_NODET (R496). -/
def St.GUAR_NODET : Status := 0x0A01#16
/-- GUAR_NONDET (R496). -/
def St.GUAR_NONDET : Status := 0x0A02#16
/-- GUAR_LATE (R496). -/
def St.GUAR_LATE : Status := 0x0A03#16
/-- GUAR_ATTIC (R496). -/
def St.GUAR_ATTIC : Status := 0x0A04#16
/-- GUAR_SPARE (R496). -/
def St.GUAR_SPARE : Status := 0x0A05#16
/-- GUAR_ANNEX (R496). -/
def St.GUAR_ANNEX : Status := 0x0A06#16
/-- GUAR_RETRY (R496). -/
def St.GUAR_RETRY : Status := 0x0A07#16
/-- GUAR_LOG (R496). -/
def St.GUAR_LOG : Status := 0x0A08#16
/-- CLK_LOSS (R496). -/
def St.CLK_LOSS : Status := 0x0B01#16
/-- AON_LOSS (R496). -/
def St.AON_LOSS : Status := 0x0B02#16
/-- AVS_ERR (R496). -/
def St.AVS_ERR : Status := 0x0B03#16
/-- REGION_OFF (R496). -/
def St.REGION_OFF : Status := 0x0B04#16
/-- THM_RANGE (R496). -/
def St.THM_RANGE : Status := 0x0B05#16
/-- POLICY_UNMET (R496). -/
def St.POLICY_UNMET : Status := 0x0B06#16
/-- THERM_TRIP (R496). -/
def St.THERM_TRIP : Status := 0x0B07#16
/-- EPO (R496). -/
def St.EPO : Status := 0x0B08#16
/-- AGE_LIMIT (R496). -/
def St.AGE_LIMIT : Status := 0x0B09#16
/-- CEL_SRAM (R496). -/
def St.CEL_SRAM : Status := 0x0C01#16
/-- FUSE_BAD (R496). -/
def St.FUSE_BAD : Status := 0x0C02#16
/-- FLASH_NONE (R496). -/
def St.FLASH_NONE : Status := 0x0C03#16
/-- IMG_BAD (R496). -/
def St.IMG_BAD : Status := 0x0C04#16
/-- IMG_AUTH (R496). -/
def St.IMG_AUTH : Status := 0x0C05#16
/-- PG_TIMEOUT (R496). -/
def St.PG_TIMEOUT : Status := 0x0C06#16
/-- BIST_FATAL (R496). -/
def St.BIST_FATAL : Status := 0x0C07#16
/-- SITE_BAD (R496). -/
def St.SITE_BAD : Status := 0x0C08#16
/-- SITE_STALE (R496). -/
def St.SITE_STALE : Status := 0x0C09#16
/-- LOAD_RANGE (R496). -/
def St.LOAD_RANGE : Status := 0x0C0A#16
/-- PLAN_DIE (R496). -/
def St.PLAN_DIE : Status := 0x0C0B#16
/-- PLAN_GEOM (R496). -/
def St.PLAN_GEOM : Status := 0x0C0C#16
/-- PLAN_FLOOR (R496). -/
def St.PLAN_FLOOR : Status := 0x0C0D#16
/-- PLAN_MESH (R496). -/
def St.PLAN_MESH : Status := 0x0C0E#16
/-- DL_NOT_HELD (R496). -/
def St.DL_NOT_HELD : Status := 0x0D01#16
/-- DL_BUSY (R496). -/
def St.DL_BUSY : Status := 0x0D02#16
/-- JOB_KILLED (R496). -/
def St.JOB_KILLED : Status := 0x0D03#16
/-- SCRUBBING (R496). -/
def St.SCRUBBING : Status := 0x0D04#16
/-- ANNEX_GEOM (R496). -/
def St.ANNEX_GEOM : Status := 0x0E01#16
/-- ANNEX_OP (R496). -/
def St.ANNEX_OP : Status := 0x0E02#16
/-- ANNEX_RANGE (R496). -/
def St.ANNEX_RANGE : Status := 0x0E03#16

end Sys2Proof.Machine
end

