-- ==== Sys2Proof/Machine/Work.lean ====
section
/-! DEFINITION. One core at work inside one command: its registers, its error registers and what it raises to the die. -/

namespace Sys2Proof.Machine

/-- A core at work: what it reads of the die, its state, and what it has raised so far, oldest first. -/
structure Wk where
  env : Env
  c : Core
  evs : List Ev
deriving DecidableEq, Repr

/-- The reset value of a core-block register at block offset `off` (R64, R167, R170, R302, R351). -/
def coreRegReset (off : Nat) : Word :=
  if off = 0x600 then 0x8
  else if off = 0x900 then 0x10
  else if off = 0xE000 then 1
  else if off = 0x4260 ∨ off = 0x4270 then 0x1000
  else if 0x3000 ≤ off ∧ off < 0x3400 ∧ 0x60 ≤ off % 0x100 ∧ off % 0x100 < 0xA0 then 0xFFFF
  else 0

/-- The reset value of a router register at block offset `off` (R239). -/
def routerRegReset (off : Nat) : Word :=
  if off = 0x5000 then 0x04000010
  else if 0x5100 ≤ off ∧ off < 0x5300 then (if off % 8 = 0 then 0x07000000 else if off % 8 = 4 then 0xFFF else 0)
  else 0

/-- A stored register of a core. -/
def Core.reg (c : Core) (off : Nat) : Word := tget (coreRegReset off) c.regs off

/-- A core with a stored register set. -/
def Core.setReg (c : Core) (off : Nat) (v : Word) : Core := { c with regs := tset (coreRegReset off) c.regs off v }

/-- A stored register of a router. -/
def Router.reg (r : Router) (off : Nat) : Word := tget (routerRegReset off) r.regs off

/-- A router with a stored register set. -/
def Router.setReg (r : Router) (off : Nat) (v : Word) : Router := { r with regs := tset (routerRegReset off) r.regs off v }

/-- The counts that this cycle's events have added to a register, or the bits they have set (R17). [DESIGN CHOICE, log 119] -/
def freshOf (t : Tbl Fresh) (cyc off : Nat) : Word :=
  let f := tget .none t off
  if f.at_ = cyc then f.added else 0

/-- An event of this cycle noted on a register that held `old`: `add` gives what its events have done together (R17).
[DESIGN CHOICE, log 119] -/
def noteFresh (t : Tbl Fresh) (cyc off : Nat) (old : Word) (add : Word → Word) : Tbl Fresh :=
  let f := tget .none t off
  tset .none t off (if freshOf t cyc off = 0 then ⟨cyc, old, add 0⟩ else { f with added := add f.added })

/-- An RC read of a register that holds `now`: the value before this cycle's events, what they leave for the next read, and the note
of them (R17). -/
def takeFresh (t : Tbl Fresh) (cyc off : Nat) (now : Word) : Word × Word × Tbl Fresh :=
  let n := freshOf t cyc off
  if n = 0 then (now, 0, t) else ((tget .none t off).before, n, tset .none t off ⟨cyc, 0, n⟩)

/-- Is a register of the block RC, so that a read clears it? (R16) -/
def coreRc (off : Nat) : Bool :=
  off == 0x010 || off == 0x014 || off == 0x018 || (decide (0x100 ≤ off) && decide (off < 0x180) && off % 0x20 == 0x14) ||
    off == 0x604 || off == 0x608 || off == 0x610 || off == 0x614 || (decide (0x704 ≤ off) && decide (off ≤ 0x718)) ||
    (decide (0x804 ≤ off) && decide (off ≤ 0x814)) || (decide (0x914 ≤ off) && decide (off ≤ 0x92C)) || off == 0x934 || off == 0x93C ||
    off == 0x940 || (decide (0x4244 ≤ off) && decide (off ≤ 0x424C)) || off == 0x426C || off == 0x427C ||
    (decide (0x6040 ≤ off) && decide (off ≤ 0x604C)) || (decide (0xD204 ≤ off) && decide (off ≤ 0xD20C)) || off == 0xF008

/-- Is a router register RC? (R239) -/
def routerRc (off : Nat) : Bool := decide (0x5004 ≤ off) && decide (off < 0x5020)

/-- A router counter advanced by `n` in cycle `cyc`, holding at its maximum (R17, R239). -/
def Router.bump (r : Router) (cyc off n : Nat) : Router :=
  { r.setReg off (satAdd32 (r.reg off) n) with
    fresh := if n = 0 ∨ routerRc off = false then r.fresh else noteFresh r.fresh cyc off (r.reg off) (fun x => satAdd32 x n) }

/-- A counter of a core advanced by `n` in cycle `cyc`, holding at 0xFFFF_FFFF (R17). -/
def Core.bump (c : Core) (cyc off n : Nat) : Core :=
  if n = 0 then c
  else { c.setReg off (satAdd32 (c.reg off) n) with
    fresh := if coreRc off then noteFresh c.fresh cyc off (c.reg off) (fun x => satAdd32 x n) else c.fresh }

/-- A register of a core set with its bit 31, which is W1C, set by an event of cycle `cyc` (R16, R17). -/
def Core.mark (c : Core) (cyc off : Nat) (v : Word) : Core :=
  { c.setReg off (v ||| 0x80000000) with fresh := noteFresh c.fresh cyc off (c.reg off) (fun x => x ||| 0x80000000) }


/-- The core changed by `f`. -/
def Wk.onCore (w : Wk) (f : Core → Core) : Wk := { w with c := f w.c }

/-- A stored register of the core. -/
def Wk.reg (w : Wk) (off : Nat) : Word := w.c.reg off

/-- The core with a stored register set. -/
def Wk.setReg (w : Wk) (off : Nat) (v : Word) : Wk := w.onCore (fun c => c.setReg off v)

/-- A counter of the core advanced by `n`, holding at 0xFFFF_FFFF (R65, R118, R142, R167, R202, R238, R267, R288). -/
def Wk.bump (w : Wk) (off n : Nat) : Wk := w.onCore (fun c => c.bump w.env.cyc off n)

/-- A register of the core set by an event with its W1C bit 31 set (R17). -/
def Wk.mark (w : Wk) (off : Nat) (v : Word) : Wk := w.onCore (fun c => c.mark w.env.cyc off v)

/-- An event raised to the die. -/
def Wk.raise (w : Wk) (e : Ev) : Wk := { w with evs := w.evs ++ [e] }

/-- The running span marked dirty and the fault reported, with the context concerned (R355, R492). -/
def Wk.spanFault (w : Wk) (st : Status) (ctx : Nat) : Wk := (w.raise (.dirty st)).raise (.fault 1 st ctx)

/-- A time-dependent event in deterministic mode: TDEV of the core and of the die (R344). -/
def Wk.timeDep (w : Wk) : Wk :=
  if w.env.det then (w.onCore (fun c => { c with tdev := true })).raise .timeDep else w

/-- An error register: SEEN, the fields `extra` at [30:16], and LAST (R118, R142, R167, R202, R238, R267, R288). -/
def Wk.recErr (w : Wk) (off extra : Nat) (st : Status) : Wk :=
  w.mark off (BitVec.ofNat 32 (put extra 16 + st.toNat))

/-- A status recorded in CORE_SEQ_ERR with its context (R202). -/
def Wk.seqErr (w : Wk) (ctx : Nat) (st : Status) : Wk := w.recErr 0x004 ctx st

/-- A status recorded in CORE_MEM_ERR (R167). -/
def Wk.memErr (w : Wk) (st : Status) : Wk := w.recErr 0x944 0 st

/-- Is the core in Annex mode? (R480, R491) -/
def Core.annex (c : Core) : Bool := bit (c.reg 0xA00) 31

/-- A context of the core. -/
def Core.ctx (c : Core) (n : Nat) : Ctx := tget Ctx.reset c.ctxs n

/-- The core with a context changed. -/
def Core.modCtx (c : Core) (n : Nat) (f : Ctx → Ctx) : Core := { c with ctxs := tmod Ctx.reset c.ctxs n f }

/-- A context changed. -/
def Wk.modCtx (w : Wk) (n : Nat) (f : Ctx → Ctx) : Wk := w.onCore (fun c => c.modCtx n f)

/-- Is a context RUNNING or DRAINING? (R191, R193) -/
def Core.ctxBusy (c : Core) (n : Nat) : Bool :=
  match (c.ctx n).state with
  | .running | .draining => true
  | _ => false

/-- The context that is RUNNING or DRAINING, if any (R190). -/
def Core.active (c : Core) : Option Nat := findIdxFrom (fun n => c.ctxBusy n) 0 4

/-- Scalar register S[n] of a context (R202). -/
def Core.sreg (c : Core) (ctx n : Nat) : Word := c.reg (0x3000 + 0x100 * ctx + 4 * n)

/-- The value of scalar register S[n] at the end of the cycle before `cyc` (R178, R188). -/
def Core.sregBefore (c : Core) (cyc ctx n : Nat) : Word :=
  let o := tget (0, 0) c.sOld (16 * ctx + n)
  if cyc < o.1 then o.2 else c.sreg ctx n

/-- A scalar register set, for the guards of a later cycle to see, from cycle `at_` on (R178, R188). -/
def Core.setS (c : Core) (cyc at_ ctx n : Nat) (v : Word) : Core :=
  { c.setReg (0x3000 + 0x100 * ctx + 4 * n) v with sOld := tset (0, 0) c.sOld (16 * ctx + n) (at_, c.sregBefore cyc ctx n) }

/-- A scalar register set in this cycle. -/
def Wk.setS (w : Wk) (ctx n : Nat) (v : Word) : Wk := w.onCore (fun c => c.setS w.env.cyc (w.env.cyc + 1) ctx n v)

/-- Loop counter L[n] of a context (R202). -/
def Core.lreg (c : Core) (ctx n : Nat) : Word := c.reg (0x3040 + 0x100 * ctx + 4 * n)

/-- A loop counter set. -/
def Wk.setL (w : Wk) (ctx n : Nat) (v : Word) : Wk := w.setReg (0x3040 + 0x100 * ctx + 4 * n) v

/-- Predicate register, bank P (`q = false`) or Q (R202). -/
def Core.pred (c : Core) (ctx : Nat) (q : Bool) (n : Nat) : BitVec 16 :=
  (c.reg (0x3060 + 0x100 * ctx + (if q then 0x20 else 0) + 4 * n)).setWidth 16

/-- A predicate register set. -/
def Wk.setPred (w : Wk) (ctx : Nat) (q : Bool) (n : Nat) (v : BitVec 16) : Wk :=
  w.setReg (0x3060 + 0x100 * ctx + (if q then 0x20 else 0) + 4 * n) (v.setWidth 32)

/-- An instruction queue (R175). -/
def Core.queue (c : Core) (k : Nat) : List QEntry := tget [] c.queues k

/-- A queue replaced. -/
def Wk.setQueue (w : Wk) (k : Nat) (q : List QEntry) : Wk := w.onCore (fun c => { c with queues := tset [] c.queues k q })

/-- The head of a queue taken away. -/
def Wk.popQueue (w : Wk) (k : Nat) : Wk := w.setQueue k (w.c.queue k).tail

/-- The head of a queue changed. -/
def Wk.modHead (w : Wk) (k : Nat) (f : QEntry → QEntry) : Wk :=
  w.setQueue k (match w.c.queue k with
    | [] => []
    | e :: es => f e :: es)

/-- The depth of a queue (R175). -/
def queueDepth (k : Nat) : Nat := if k ≤ 3 then 16 else 8

/-- The unit that serves a queue, as CORE_UNIT_CTL numbers it (R202). -/
def unitOfQueue (k : Nat) : Nat := k - 1

/-- The status of a unit: 0 enabled, 1 draining, 2 disabled (R202). -/
def Core.unit (c : Core) (u : Nat) : Nat := tget 0 c.units u

/-- The numeric events of a conversion or an accumulation counted (R64, R65, R79): only while CNT_EN is 1. -/
def Wk.countNum (w : Wk) (e : NumEv) : Wk :=
  if bit (w.reg 0x600) 3 then
    (((w.bump 0x604 e.sat).bump 0x608 e.special).bump 0x610 e.ovf).bump 0x614 e.inv
  else w

/-- The vector engine's arithmetic events counted (R127, R142). -/
def Wk.countVec (w : Wk) (e : NumEv) : Wk :=
  if bit (w.reg 0x600) 3 then (w.bump 0x810 e.ovf).bump 0x814 e.inv else w

/-- The result of one attempt at the head of a queue: it is done, it still waits, or it is refused (R179). -/
inductive Eng where
  | done (w : Wk)
  | wait (w : Wk)
  | refuse (w : Wk) (st : Status)
deriving DecidableEq, Repr

/-- CB-128 (R299): eight rounds on a key and a counter of four words. -/
def cbRound (k0 k1 k2 k3 : Word) (r : Nat) (x : Word × Word × Word × Word) : Word × Word × Word × Word :=
  let (x0, x1, x2, x3) := x
  let x0 := x0 + x1
  let x1 := x1.rotateLeft 7 ^^^ x0
  let x2 := x2 + x3
  let x3 := x3.rotateLeft 11 ^^^ x2
  let x0 := x0.rotateLeft 16
  let k (i : Nat) : Word := match (i + r + 1) % 4 with
    | 0 => k0 | 1 => k1 | 2 => k2 | _ => k3
  let c : Word := BitVec.ofNat 32 (r + 1)
  (x0 + k 0 + c, x3 + k 1 + c, x2 + k 2 + c, x1 + k 3 + c)

/-- The 128-bit output of CB-128 (R299). -/
def cb128 (k0 k1 k2 k3 c0 c1 c2 c3 : Word) : Nat :=
  let x := (List.range 8).foldl (fun x r => cbRound k0 k1 k2 k3 r x) (c0 ^^^ k0, c1 ^^^ k1, c2 ^^^ k2, c3 ^^^ k3)
  (x.1 ^^^ c0).toNat + put (x.2.1 ^^^ c1).toNat 32 + put (x.2.2.1 ^^^ c2).toNat 64 + put (x.2.2.2 ^^^ c3).toNat 96

/-- The stochastic-rounding value of element `n` (R59, R300). -/
def srU (seed : BitVec 64) (tweak span : Word) (n : Nat) : Nat :=
  let w := n / 8
  let y := cb128 (seed.setWidth 32) ((seed >>> 32).setWidth 32) tweak 0x7B2D94E1
    (BitVec.ofNat 32 w) (BitVec.ofNat 32 (w / 2 ^ 32)) span 0
  nfld y (16 * (n % 8) + 15) (16 * (n % 8))

/-- The core's seed (R301). -/
def Core.seed (c : Core) : BitVec 64 := (c.reg 0x624) ++ (c.reg 0x620)

/-- The value u of element `n` for an instruction of a context, as it stands at expansion (R301). -/
def Wk.uOf (w : Wk) (ctx : Nat) (n : Nat) : Nat := srU w.c.seed (w.c.sreg ctx 15) w.env.span n

/-- A conversion word resolved against CORE_CVT_CTL (R55). -/
def Wk.cvt (w : Wk) (word : Word) : Option Cvt := decodeCvt word (w.reg 0x600)

/-- The SR value an element needs: only an SR word draws one. -/
def Wk.uFor (w : Wk) (cv : Cvt) (ctx n : Nat) : Nat := if cv.rnd = 2 then w.uOf ctx n else 0

/-- Serial-number comparison of R370 at `width` bits: is `b` at or after `a`? -/
def atOrAfter (width a b : Nat) : Bool := decide ((b + 2 ^ width - a % 2 ^ width) % 2 ^ width < 2 ^ (width - 1))

end Sys2Proof.Machine
end

