-- ==== Sys2Proof/Machine/Fabric.lean ====
section
/-! DEFINITION. Flit headers, Hallway messages and the choice of a module towards another die (R207, R277, R326, R327). -/

namespace Sys2Proof.Machine

/-- The fields of a flit header (R207). -/
structure Hdr where
  vc : Nat
  kind : Nat
  tail : Bool
  far : Bool
  dest : Nat
  dep : Nat
  src : Nat
  sep : Nat
  mseq : Nat
  fidx : Nat
deriving DecidableEq, Repr

/-- A header word from its fields (R207). -/
def Hdr.pack (h : Hdr) : BitVec 64 :=
  BitVec.ofNat 64 (put (h.vc % 4) 62 + put (h.kind % 8) 59 + put (b2n h.tail) 58 + put (b2n h.far) 57 + put (h.dest % 4096) 45
    + put (h.dep % 16) 41 + put (h.src % 4096) 29 + put (h.sep % 16) 25 + put (h.mseq % 65536) 9 + h.fidx % 512)

/-- The fields of a header word (R207). -/
def Hdr.unpack (w : BitVec 64) : Hdr :=
  ⟨fld w 63 62, fld w 61 59, bit w 58, bit w 57, fld w 56 45, fld w 44 41, fld w 40 29, fld w 28 25, fld w 24 9, fld w 8 0⟩

/-- The header of a flit. -/
def Flit.h (f : Flit) : Hdr := Hdr.unpack f.hdr

/-- Payload word `i` of a flit. -/
def Flit.word (f : Flit) (i : Nat) : BitVec 64 := nth 0 f.pay i

/-- A clean flit from a header and its first payload words, the rest zero. -/
def Flit.mk' (h : Hdr) (ws : List (BitVec 64)) : Flit :=
  ⟨h.pack, (ws ++ List.replicate 8 0).take 8, [], [], none, false⟩

/-- The reset value of a die-control register at offset `off` from 0x1_0000_0000 (R341, R377, R414). -/
def porchRegReset (off : Nat) : Word :=
  if off = 0xC0000 then 0x00030000
  else if off = 0xC0018 then 4096
  else if off = 0xC001C then 0x03E8FFFF
  else if off = 0x80000 then 0xFFFF
  else if off = 0x8000C then 1000
  else if 0x81000 ≤ off ∧ off < 0x81600 ∧ off % 32 = 0 then 0x80000005
  else if 0x88000 ≤ off ∧ off < 0x88800 ∧ off % 32 = 0xC then 0x80400064
  else if off = 0x100000 then 0x400F0000
  else if off = 0x100004 then 0x009607D0
  else if off = 0x100008 then 50
  else if off = 0x10000C then 0x00000F00
  else if off = 0x100010 then 600
  else if off = 0x100014 then 100
  else if off = 0x100018 then 105
  else if off = 0x10001C then 0x00000500
  else if off = 0x100020 then 0x00100000
  else if off = 0x100028 then 0x00000F00
  else 0

/-- A Porch register as the tables of a core hold it (R326). -/
def Env.porch (e : Env) (off : Nat) : Word := tget (porchRegReset off) e.dieRegs off

/-- The modules of a link group's mask, ascending (R326). -/
def groupModules (reg : Nat → Word) (g : Nat) : List Nat :=
  let mask := (reg (0x82000 + 8 * g)).toNat + put (fld (reg (0x82004 + 8 * g)) 15 0) 32
  (List.range 48).filter (fun m => mask.testBit m)

/-- The routing entry a die address matches: the group or the connection of the first valid entry (R326). -/
def routeEntry (reg : Nat → Word) (d : DieAddr) : Option (Bool × Nat) :=
  (List.range 64).findSome? (fun r =>
    let k := reg (0x82100 + 8 * r)
    let c := reg (0x82104 + 8 * r)
    if bit c 31 ∧ (d &&& k.setWidth 16) = (k >>> 16).setWidth 16 then some (bit c 30, fld c 5 0) else none)

/-- The flow key of a source core on die `sdie` (R326). -/
def flowKey (sdie : DieAddr) (core : Nat) : Nat := sdie.toNat + 48 * (core / 64) + core % 64

/-- The module that carries a flow through a group. -/
def groupPick (ms : List Nat) (f : Nat) : Option Nat := if ms.isEmpty then none else ms[f % ms.length]?

/-- The module towards die `d` for flow key `f`, with its connection when the entry names one (R326, R334). -/
def routeModule (reg : Nat → Word) (d : DieAddr) (f : Nat) : Option (Nat × Option Nat) :=
  match routeEntry reg d with
  | none => none
  | some (false, g) => (groupPick (groupModules reg (g % 16)) f).map (fun m => (m, none))
  | some (true, c) => (groupPick (groupModules reg (fld (reg (0x88000 + 32 * c)) 27 24)) f).map (fun m => (m, some c))

/-- The header of a single-flit message from this core to a core of a die; none when a far die has no route (R207, R327). -/
def Wk.singleHdr (w : Wk) (vc kind : Nat) (die : DieAddr) (core dep sep : Nat) : Option Hdr :=
  if die = w.env.die then
    some ⟨vc, kind, true, false, core, dep, w.env.code.toNat, sep, 0, 0⟩
  else
    (routeModule w.env.porch die (flowKey w.env.die w.env.code.toNat)).map (fun m =>
      ⟨vc, kind, true, true, 64 * (core / 64) + m.1, dep, w.env.code.toNat, sep, die.toNat, core % 64⟩)

/-- A Hallway flit put at the end of the core's waiting Hallway messages (R211). -/
def Wk.pushHall (w : Wk) (f : Flit) : Wk :=
  w.onCore (fun c => { c with hall := c.hall ++ [f], hallIn := c.hallIn + 1 })

/-- A Hallway message to a core of a die, dropped with NO_ROUTE recorded when the die has no route (R277, R328). -/
def Wk.sendHall (w : Wk) (kind : Nat) (die : DieAddr) (core dep sep : Nat) (ws : List (BitVec 64)) : Wk :=
  match w.singleHdr 0 kind die core dep sep with
  | some h => w.pushHall (Flit.mk' h ws)
  | none => w.raise .noRoute

/-- Payload word 0 of a synchronisation message (R277). -/
def syncWord0 (mop ctx id n : Nat) (cons cmp : Bool) (tag : Nat) : BitVec 64 :=
  BitVec.ofNat 64 (put mop 60 + put ctx 58 + put id 52 + put n 36 + put (b2n cons) 35 + put (b2n cmp) 34 + put tag 30)

/-- Payload word 1 of a synchronisation message (R277). -/
def syncWord1 (sdie : DieAddr) (st : Status) (x : Nat) : BitVec 64 :=
  BitVec.ofNat 64 (put sdie.toNat 48 + put st.toNat 32 + x % 2 ^ 32)

end Sys2Proof.Machine
end

