-- ==== Sys2Proof/Machine/Memory.lean ====
section
/-! DEFINITION. The three memories of a core: banks, the symbol code, handles, reads and writes (R143 to R166). -/

namespace Sys2Proof.Machine

/-! ### The symbol code (R162) -/

/-- Multiplication in GF(16) with x⁴ + x + 1. -/
def gfMul (a b : Nat) : Nat :=
  let step (a i : Nat) : Nat :=
    (List.range i).foldl (fun x _ => if x < 8 then 2 * x else (2 * x) ^^^ 0x13) a
  (List.range 4).foldl (fun r i => if nfld b i i = 1 then r ^^^ step a i else r) 0

/-- α^n in GF(16). -/
def gfPow (n : Nat) : Nat := (List.range n).foldl (fun x _ => gfMul x 2) 1

/-- The parity-check column of symbol `i` (R162's table). -/
def eccCol (i : Nat) : Nat × Nat × Nat :=
  if i = 15 then (0, 1, 1)
  else if i = 16 then (gfPow 10, 0, 0)
  else if i = 17 then (0, gfPow 10, 0)
  else if i = 18 then (0, 0, gfPow 5)
  else
    let t := gfPow i
    let g := if t % 2 = 0 then gfPow 10 else gfPow 5
    (g, gfMul g t, gfMul g (gfMul t t))

/-- The syndrome that a discrepancy of the three check symbols gives: symbol 16 in [3:0], 17 in [7:4], 18 in [11:8]. -/
def eccSyndrome (d : BitVec 12) : Nat × Nat × Nat :=
  (gfMul (fld d 3 0) (gfPow 10), gfMul (fld d 7 4) (gfPow 10), gfMul (fld d 11 8) (gfPow 5))

/-- The check symbols of a data word (R162's encoder). -/
def eccCheck (data : BitVec 64) : BitVec 12 :=
  let s := (List.range 16).foldl (fun (a : Nat × Nat × Nat) i =>
    let d := fld data (4 * i + 3) (4 * i)
    let h := eccCol i
    (a.1 ^^^ gfMul d h.1, a.2.1 ^^^ gfMul d h.2.1, a.2.2 ^^^ gfMul d h.2.2)) (0, 0, 0)
  BitVec.ofNat 12 (gfMul (gfPow 5) s.1 + put (gfMul (gfPow 5) s.2.1) 4 + put (gfMul (gfPow 10) s.2.2) 8)

/-- The single symbol and error value that explain a syndrome, if there is one (R162's decoder). [DESIGN CHOICE, log 29] -/
def eccLocate (s : Nat × Nat × Nat) : Option (Nat × Nat) :=
  (List.range (19 * 15)).findSome? (fun k =>
    let i := k / 15
    let e := k % 15 + 1
    let h := eccCol i
    if gfMul e h.1 = s.1 ∧ gfMul e h.2.1 = s.2.1 ∧ gfMul e h.2.2 = s.2.2 then some (i, e) else none)

/-- What the decoder finds in a word's codeword: clean, one symbol in error with its value, or uncorrectable. -/
inductive EccRead where
  | clean
  | sym (i e : Nat)
  | bad
deriving DecidableEq, Repr

/-- The decoder's answer for an error state. [DESIGN CHOICE, log 29] -/
def WErr.read : WErr → EccRead
  | .clean => .clean
  | .poison => .bad
  | .disc d =>
    if d = 0 then .clean
    else match eccLocate (eccSyndrome d) with
      | some (i, e) => .sym i e
      | none => .bad

/-- The data word with the symbol's error taken away. -/
def eccFix (data : BitVec 64) (i e : Nat) : BitVec 64 :=
  if i < 16 then data ^^^ BitVec.ofNat 64 (put e (4 * i)) else data

/-! ### Banks and lines -/

/-- The reading ports of R167's logs. -/
def portFeeder : Nat := 0
/-- The vector port. -/
def portVector : Nat := 1
/-- The DMA/stream port. -/
def portDma : Nat := 2
/-- Patrol, or the merge of a partial write. -/
def portPatrol : Nat := 3

/-- The size of a memory on this die: 0 Pantry, 1 AM, 2 SM (R143). -/
def memSize (small : Bool) (m : Nat) : Nat :=
  if m = 0 then (if small then 0x10000 else 0x20000) else if m = 1 then 0x20000 else if m = 2 then 0x10000 else 0

/-- Bank and row of the line at offset `o` (R145; R481 for the Pantry of an Annex core). -/
def bankRow (annex small : Bool) (m o : Nat) : Nat × Nat :=
  if m = 0 ∧ annex = true then
    let h := o / 0x10000
    (8 * h + (nfld o 8 6 ^^^ (4 * nfld o 9 9)), nfld o 15 9)
  else if m = 1 ∨ (m = 0 ∧ small = false) then
    if o < 0x10000 then (nfld o 8 6 ^^^ nfld o 11 9, nfld o 15 9)
    else if o < 0x18000 then (8 + (nfld o 7 6 ^^^ nfld o 9 8), nfld o 14 8)
    else (12 + (nfld o 7 6 ^^^ nfld o 9 8), nfld o 14 8)
  else
    if o < 0x8000 then (nfld o 7 6 ^^^ nfld o 9 8, nfld o 14 8)
    else if o < 0xC000 then (4 + (nfld o 6 6 ^^^ nfld o 7 7), nfld o 13 7)
    else (6 + (nfld o 6 6 ^^^ nfld o 7 7), nfld o 13 7)

/-- The offset of the line in a bank and row: the inverse of `bankRow`. -/
def lineOf (annex small : Bool) (m bank row : Nat) : Nat :=
  if m = 0 ∧ annex = true then
    let h := bank / 8
    0x10000 * h + put row 9 + put ((bank % 8) ^^^ (4 * (row % 2))) 6
  else if m = 1 ∨ (m = 0 ∧ small = false) then
    if bank < 8 then put row 9 + put (bank ^^^ (row % 8)) 6
    else if bank < 12 then 0x10000 + put row 8 + put ((bank - 8) ^^^ (row % 4)) 6
    else 0x18000 + put row 8 + put ((bank - 12) ^^^ (row % 4)) 6
  else
    if bank < 4 then put row 8 + put (bank ^^^ (row % 4)) 6
    else if bank < 6 then 0x8000 + put row 7 + put ((bank - 4) ^^^ (row % 2)) 6
    else 0xC000 + put row 7 + put ((bank - 6) ^^^ (row % 2)) 6

/-- How many banks a memory has (R143). -/
def numBanks (small : Bool) (m : Nat) : Nat := if m = 2 ∨ (m = 0 ∧ small = true) then 8 else 16

/-- The key of a bank in the bank table. -/
def bankKey (m b : Nat) : Nat := 16 * m + b

/-- A bank's state. -/
def Core.bank (c : Core) (m b : Nat) : Bank := tget .off c.banks (bankKey m b)

/-- The bank of the line at an offset. -/
def Wk.bankAt (w : Wk) (m o : Nat) : Nat := (bankRow w.c.annex w.env.smallPantry m o).1

/-- The key of a byte: memory, bank, row and byte of the line. -/
def Wk.byteKey (w : Wk) (m o : Nat) : Nat :=
  let br := bankRow w.c.annex w.env.smallPantry m o
  0x20000 * m + 64 * (128 * br.1 + br.2) + o % 64

/-- Can the bank serve an access now? (R160) -/
def Bank.serves : Bank → Bool
  | .on | .last _ => true
  | _ => false

/-- Must an access wait for the bank to wake? (R161) -/
def Bank.waits : Bank → Bool
  | .queued _ | .waking _ | .stopping true => true
  | _ => false

/-- Must an access to these offsets of a memory wait? (R161) [DESIGN CHOICE, log 33] -/
def Wk.mustWait (w : Wk) (m : Nat) (offs : List Nat) : Bool :=
  offs.any (fun o => (w.c.bank m (w.bankAt m o)).waits)

/-- The stored 64-bit word at an offset (aligned down). [DESIGN CHOICE, log 11] -/
def Wk.rawWord (w : Wk) (m o : Nat) : BitVec 64 :=
  let o := 8 * (o / 8)
  BitVec.ofNat 64 (leNat ((List.range 8).map (fun i => tget 0 w.c.mem (w.byteKey m (o + i)))))

/-- The error state of the word at an offset. -/
def Wk.werrAt (w : Wk) (m o : Nat) : WErr := tget .clean w.c.werr (w.byteKey m o / 8)

/-- The word a read delivers: corrected when one symbol is in error, as stored otherwise (R163, R164). -/
def Wk.wordAt (w : Wk) (m o : Nat) : BitVec 64 :=
  match (w.werrAt m o).read with
  | .sym i e => eccFix (w.rawWord m o) i e
  | _ => w.rawWord m o

/-- The byte a read of an on bank delivers. -/
def Wk.byteAt (w : Wk) (m o : Nat) : Byte :=
  match w.werrAt m o with
  | .clean => tget 0 w.c.mem (w.byteKey m o)
  | _ => BitVec.ofNat 8 ((w.wordAt m o).toNat / 256 ^ (o % 8))

/-- The word a read through `port` meets where another port has written it in this cycle: the row as it stood before the write (R149). -/
def Wk.oldWord (w : Wk) (port m o : Nat) : Option OldWord :=
  let x := tget OldWord.none w.c.old (w.byteKey m o / 8)
  if x.at_ = w.env.cyc + 1 ∧ x.port ≠ port then some x else none

/-- The error state that a read through `port` meets (R149). -/
def Wk.errFor (w : Wk) (port m o : Nat) : WErr := (w.oldWord port m o).elim (w.werrAt m o) (·.err)

/-- The byte a read of an on bank through `port` delivers (R149, R163, R164). -/
def Wk.byteFor (w : Wk) (port m o : Nat) : Byte :=
  match w.oldWord port m o with
  | none => w.byteAt m o
  | some x =>
    let data := match x.err.read with
      | .sym i e => eccFix x.data i e
      | _ => x.data
    BitVec.ofNat 8 (data.toNat / 256 ^ (o % 8))

/-- Some words about to be written through `port` kept as they stood at the start of the cycle (R149). -/
def Wk.keepOld (w : Wk) (port m : Nat) (offs : List Nat) : Wk :=
  (offs.map (fun o => o / 8)).eraseDups.foldl (fun w k =>
    let key := w.byteKey m (8 * k) / 8
    if (tget OldWord.none w.c.old key).at_ = w.env.cyc + 1 then w
    else
      let x : OldWord := ⟨w.env.cyc + 1, port, w.rawWord m (8 * k), w.werrAt m (8 * k)⟩
      w.onCore (fun c => { c with old := tset OldWord.none (c.old.filter (fun e => e.2.at_ == w.env.cyc + 1)) key x })) w

/-- Accesses to the lines of some offsets, one for each entry, put at the end of what a port has accepted (R146). -/
def Wk.askPort (w : Wk) (port m : Nat) (write : Bool) (start tag : Nat) (offs : List Nat) : Wk :=
  let reqs := offs.map (fun o =>
    let br := bankRow w.c.annex w.env.smallPantry m o
    (⟨port, m, br.1, br.2, write, start, 0, tag⟩ : PortReq))
  w.onCore (fun c => { c with ports := c.ports ++ reqs })

/-- Has a port of a memory accesses that its banks have still to serve? -/
def Core.portBusy (c : Core) (port m : Nat) : Bool := c.ports.any (fun x => x.port == port && x.mem == m)

/-- The distinct lines of some offsets, in the order of first use (R151). -/
def linesIn (offs : List Nat) : List Nat := ((offs.map (fun o => o / 64)).eraseDups).map (fun l => 64 * l)

/-- The runs of some offsets: consecutive ones in one line are one access (R262). -/
def runsIn : List Nat → List Nat
  | [] => []
  | o :: os =>
    match runsIn os with
    | [] => [64 * (o / 64)]
    | l :: ls => if o / 64 = l / 64 then l :: ls else 64 * (o / 64) :: l :: ls

/-- Correctable errors of one core counted towards CE_STORM's window (R499), while THR is not 0; the die compares with THR. -/
def Core.countCe (c : Core) (cyc : Nat) : Core :=
  let win := cyc / 2 ^ 20
  if c.ceWin = win then { c with ceCnt := c.ceCnt + 1 }
  else { c with ceWin := win, ceCnt := 1, ceRaised := false }

/-- One word read with one symbol corrected (R163). -/
def Wk.logCe (w : Wk) (m o port sym : Nat) (wb : Bool) : Wk :=
  let w := (w.bump 0x92C 1).mark 0x930 (BitVec.ofNat 32 (put m 29 + put port 27 + put sym 22 + put (o / 8) 3))
  let w := if fld (tget 0 w.env.dieRegs 0x240038) 15 0 = 0 then w else w.onCore (fun c => c.countCe w.env.cyc)
  let w := w.raise (.ceMem 1)
  if wb && bit (w.reg 0x900) 4 then
    w.onCore (fun c => { c with ceWb := c.ceWb ++ [0x20000 * m + 8 * (o / 8)] })
  else w

/-- One word found uncorrectable (R164); the matrix unit and the vector engine mark the span dirty. -/
def Wk.logUe (w : Wk) (m o port ctx : Nat) : Wk :=
  let w := ((w.bump 0x934 1).mark 0x938 (BitVec.ofNat 32 (put m 29 + put port 27 + put (o / 8) 3))).memErr St.MEM_UE
  let w := w.raise (.ueMem 1)
  if port = portFeeder ∨ port = portVector then w.spanFault St.MEM_UE ctx else w

/-- What an access met: bytes outside the buffer, a bank that is off, an uncorrectable word. -/
structure AccFlags where
  oob : Bool := false
  off : Bool := false
  ue : Bool := false
deriving DecidableEq, Repr

/-- Flags of two accesses together. -/
def AccFlags.or (a b : AccFlags) : AccFlags := ⟨a.oob || b.oob, a.off || b.off, a.ue || b.ue⟩

/-- The distinct words among offsets whose codewords are not clean, ascending in first use. -/
def Wk.badWords (w : Wk) (m : Nat) (offs : List Nat) : List Nat :=
  if w.c.werr.isEmpty then []
  else ((offs.map (fun o => o / 8)).eraseDups).filter
    (fun k => w.werrAt m (8 * k) != .clean && (w.c.bank m (w.bankAt m (8 * k))).serves)

/-- The distinct words among offsets that a read through `port` finds with a codeword that is not clean. -/
def Wk.badFor (w : Wk) (port m : Nat) (offs : List Nat) : List Nat :=
  if w.c.werr.isEmpty && w.c.old.isEmpty then []
  else ((offs.map (fun o => o / 8)).eraseDups).filter
    (fun k => w.errFor port m (8 * k) != .clean && (w.c.bank m (w.bankAt m (8 * k))).serves)

/-- The errors that a read of these offsets meets, counted and logged (R163, R164). -/
def Wk.noteRead (w : Wk) (m port ctx : Nat) (offs : List Nat) : Wk × Bool :=
  (w.badFor port m offs).foldl (fun (a : Wk × Bool) k =>
    match (w.errFor port m (8 * k)).read with
    | .sym i _ => (a.1.logCe m (8 * k) port i true, a.2)
    | .bad => (a.1.logUe m (8 * k) port ctx, true)
    | .clean => a) (w, false)

/-- What a read of bytes of one memory through a port delivers: banks that are off read 0x00 (R149, R160). -/
def Wk.bytesFor (w : Wk) (m port : Nat) (offs : List Nat) : List Byte :=
  offs.map (fun o => if (w.c.bank m (w.bankAt m o)).serves then w.byteFor port m o else 0)

/-- A read of bytes of one memory, every offset inside it, its port accesses left to the caller. -/
def Wk.readRaw (w : Wk) (m port ctx : Nat) (offs : List Nat) : Wk × List Byte × AccFlags :=
  let r := w.noteRead m port ctx offs
  (r.1, w.bytesFor m port offs, { off := !(offs.all (fun o => (w.c.bank m (w.bankAt m o)).serves)), ue := r.2 })

/-- A read of bytes of one memory, every offset inside it: one access of the port for each distinct line (R146, R151, R160). -/
def Wk.readMem (w : Wk) (m port ctx : Nat) (offs : List Nat) : Wk × List Byte × AccFlags :=
  let r := w.readRaw m port ctx offs
  (r.1.askPort port m false w.env.cyc 0 (linesIn offs), r.2)

/-- One byte written under a bit mask into an on bank. -/
def Wk.putByte (w : Wk) (m o : Nat) (v mask : Byte) : Wk :=
  let k := w.byteKey m o
  w.onCore (fun c => { c with mem := tset 0 c.mem k ((tget 0 c.mem k &&& ~~~mask) ||| (v &&& mask)) })

/-- The error state of a word set. -/
def Wk.setWerr (w : Wk) (m o : Nat) (e : WErr) : Wk :=
  let k := w.byteKey m o / 8
  w.onCore (fun c => { c with werr := tset .clean c.werr k e })

/-- The eight bytes of a word stored. -/
def Wk.putWord (w : Wk) (m o : Nat) (d : BitVec 64) : Wk :=
  iter 8 (fun i w => w.putByte m (8 * (o / 8) + i) (BitVec.ofNat 8 (d.toNat / 256 ^ i)) 0xFF) w

/-- The error states that a write of some bytes leaves (R165): a write of all 64 bits of a word clears its error; a partial one merges into the
corrected word, or leaves the check pattern of an uncorrectable word. -/
def Wk.mergeErrs (w : Wk) (m : Nat) (live : List (Nat × Byte × Byte)) : Wk :=
  (w.badWords m (live.map (·.1))).foldl (fun (w : Wk) k =>
    let full := (List.range 8).all (fun i => live.any (fun x => x.1 == 8 * k + i && x.2.2 == 0xFF))
    if full then w.setWerr m (8 * k) .clean
    else match (w.werrAt m (8 * k)).read with
      | .sym i e => ((w.logCe m (8 * k) portPatrol i false).putWord m (8 * k) (eccFix (w.rawWord m (8 * k)) i e)).setWerr m (8 * k) .clean
      | .bad => (w.logUe m (8 * k) portPatrol 0).setWerr m (8 * k) .poison
      | .clean => w) w

/-- A write of bytes, each with a bit mask, every offset inside the memory, its port accesses left to the caller (R149, R160, R165). -/
def Wk.writeRaw (w : Wk) (m port : Nat) (ws : List (Nat × Byte × Byte)) : Wk × AccFlags :=
  let serves (o : Nat) : Bool := (w.c.bank m (w.bankAt m o)).serves
  let live := ws.filter (fun x => serves x.1)
  let w1 := (w.keepOld port m (live.map (·.1))).mergeErrs m live
  let w2 := live.foldl (fun w x => w.putByte m x.1 x.2.1 x.2.2) w1
  let keys := live.map (fun x => 0x20000 * m + 8 * (x.1 / 8))
  (if w2.c.ceWb.isEmpty then w2 else w2.onCore (fun c => { c with ceWb := c.ceWb.filter (fun k => !keys.contains k) }),
    { off := ws.any (fun x => !serves x.1) })

/-- A write of bytes, each with a bit mask, every offset inside the memory: one access of the port for each distinct line (R146, R151,
R165). -/
def Wk.writeMem (w : Wk) (m port : Nat) (ws : List (Nat × Byte × Byte)) : Wk × AccFlags :=
  let r := w.writeRaw m port ws
  (r.1.askPort port m true w.env.cyc 0 (linesIn (ws.map (·.1))), r.2)

/-- A word stored with the check pattern that always decodes as uncorrectable (R165, R235). -/
def Wk.poisonWord (w : Wk) (m o : Nat) : Wk :=
  if (w.c.bank m (w.bankAt m o)).serves then w.setWerr m o .poison else w

/-! ### Handles (R153 to R155) -/

/-- The buffer a handle maps. -/
structure Buf where
  mem : Nat
  base : Nat
  size : Nat
deriving DecidableEq, Repr

/-- The handle of a context as it stands, or the status that refuses it (R154). [DESIGN CHOICE, log 22] -/
def Wk.handle (w : Wk) (ctx h : Nat) (write : Bool) : Buf ⊕ Status :=
  let b := w.reg (0x1000 + 0x80 * ctx + 8 * h)
  let s := w.reg (0x1004 + 0x80 * ctx + 8 * h)
  let m := fld b 29 28
  let base := 64 * fld b 16 6
  let size := 64 * fld s 17 6
  if bit b 31 = false then .inr St.HND_INVALID
  else if write && bit b 30 then .inr St.HND_RO
  else if m = 3 ∨ memSize w.env.smallPantry m < base + size then .inr St.MEM_RANGE
  else .inl ⟨m, base, size⟩

/-- Is a buffer offset inside the buffer? (R155) -/
def Buf.has (b : Buf) (o : Int) : Bool := decide (0 ≤ o) && decide (o < b.size)

/-- The memory offsets of the bytes inside the buffer. -/
def Buf.offs (b : Buf) (os : List Int) : List Nat := (os.filter b.has).map (fun o => b.base + o.toNat)

/-- Must an access to these buffer offsets wait for a bank? (R161) -/
def Wk.bufWait (w : Wk) (b : Buf) (os : List Int) : Bool := w.mustWait b.mem (b.offs os)

/-- What a read through a handle and a port delivers: bytes outside the buffer are 0x00 (R155). -/
def Wk.bufBytes (w : Wk) (b : Buf) (port : Nat) (os : List Int) : List Byte :=
  os.map (fun o => if b.has o then nth 0 (w.bytesFor b.mem port [b.base + o.toNat]) 0 else 0)

/-- A byte of a buffer as a read of the DMA/stream port delivers it. -/
def Wk.bufByte (w : Wk) (b : Buf) (o : Int) : Byte := nth 0 (w.bufBytes b portDma [o]) 0

/-- Does a read of the DMA/stream port find the word at a buffer offset uncorrectable? -/
def Wk.bufBad (w : Wk) (b : Buf) (o : Int) : Bool :=
  b.has o && (w.c.bank b.mem (w.bankAt b.mem (b.base + o.toNat))).serves && (w.errFor portDma b.mem (b.base + o.toNat)).read == EccRead.bad

/-- A read through a handle: bytes outside the buffer are 0x00 (R155). -/
def Wk.readBuf (w : Wk) (b : Buf) (port ctx : Nat) (os : List Int) : Wk × List Byte × AccFlags :=
  let r := w.readMem b.mem port ctx (b.offs os)
  (r.1, w.bufBytes b port os, { r.2.2 with oob := os.any (fun o => !b.has o) })

/-- The writes that fall inside a buffer, at their memory offsets. -/
def Buf.inside (b : Buf) (ws : List (Int × Byte × Byte)) : List (Nat × Byte × Byte) :=
  (ws.filter (fun x => b.has x.1)).map (fun x => (b.base + x.1.toNat, x.2))

/-- A write through a handle: bytes outside the buffer are dropped (R155). -/
def Wk.writeBuf (w : Wk) (b : Buf) (port : Nat) (ws : List (Int × Byte × Byte)) : Wk × AccFlags :=
  let r := w.writeMem b.mem port (b.inside ws)
  (r.1, { r.2 with oob := ws.any (fun x => !b.has x.1) })

/-- One access that touched a byte outside its buffer or a bank that is off: counted once and recorded (R155, R160).
[DESIGN CHOICE, log 30] -/
def Wk.noteAcc (w : Wk) (f : AccFlags) : Wk :=
  let w := if f.oob || f.off then w.bump 0x93C 1 else w
  let w := if f.oob then w.memErr St.HND_OOB else w
  if f.off then w.memErr St.BANK_OFF else w

/-! ### Arbitration (R146 to R149) -/

/-- The accesses of a port and memory that ask in a cycle: the oldest one of the vector and the DMA/stream port, and of the matrix feeder the
oldest write alone or the reads before the next write, each in a different bank, at most 16 (R147). -/
def portAsks (cyc port m : Nat) (l : List PortReq) : List PortReq :=
  let due := l.filter (fun x => x.port == port && x.mem == m && decide (x.from_ ≤ cyc))
  match due with
  | [] => []
  | x :: _ =>
    if port ≠ portFeeder ∨ x.write then [x]
    else ((due.takeWhile (fun y => !y.write)).foldl (fun (a : List PortReq) y => if a.any (fun z => z.bank == y.bank) then a else a ++ [y]) []).take 16

/-- The access that a bank serves among those that ask for its read or its write access: a promoted one, which has lost three times, before
the others, then the matrix feeder, the vector port and the DMA/stream port (R148). -/
def bankPick (asks : List PortReq) : Option PortReq :=
  let order (l : List PortReq) : Option PortReq := [portFeeder, portVector, portDma].findSome? (fun p => l.find? (fun x => x.port == p))
  (order (asks.filter (fun x => decide (3 ≤ x.lost)))).or (order asks)

/-- The accesses of a memory that are served in a cycle: one read and one write of each bank (R144, R148). -/
def served (asks : List PortReq) : List PortReq :=
  let keys := (asks.map (fun x => (x.bank, x.write))).eraseDups
  keys.filterMap (fun k => bankPick (asks.filter (fun x => x.bank == k.1 && x.write == k.2)))

/-- The counter of a memory at an offset: the collision counters from 0x914, the clash counters from 0x920 (R167). -/
def memCnt (base m : Nat) : Nat := base + 4 * m

/-- One cycle of a memory's banks: what they serve leaves, every other access that asked has lost an arbitration, and a row read in the cycle
of its write is a clash (R148, R149, R167). -/
def Wk.arbitrateMem (w : Wk) (m : Nat) : Wk :=
  let asks := [portFeeder, portVector, portDma].flatMap (fun p => portAsks w.env.cyc p m w.c.ports)
  let win := served asks
  let lose := asks.filter (fun x => !win.contains x)
  let clash := win.countP (fun x => !x.write && win.any (fun y => y.write && y.bank == x.bank && y.row == x.row))
  let left := win.foldl (fun (l : List PortReq) x => l.erase x) w.c.ports
  let left := lose.foldl (fun (l : List PortReq) x => match l.findIdx? (· == x) with
    | some i => l.set i { x with lost := x.lost + 1 }
    | none => l) left
  let w := (w.onCore (fun c => { c with ports := left })).bump (memCnt 0x914 m) lose.length
  if clash = 0 then w else (w.bump (memCnt 0x920 m) clash).raise (.clash clash)

/-- n consecutive offsets from `a`. -/
def span (a : Int) (n : Nat) : List Int := (List.range n).map (fun i => a + (i : Nat))

/-- A little-endian element of z bytes at place `i` of a byte list. -/
def elemAt (bytes : List Byte) (z i : Nat) : Nat := leNat ((bytes.drop (z * i)).take z)

/-- Element `i` of a plane group of b-bit elements (R48). -/
def planeElem (bytes : List Byte) (b i : Nat) : Nat :=
  bitsOf b (fun j => bit (nth 0 bytes (16 * j + i / 8)) (i % 8))

/-- The byte writes that place b-bit element values into one plane group at `a`, with per-bit enables (R48, R256). -/
def planeWrites (a : Int) (b : Nat) (els : List (Nat × Nat)) : List (Int × Byte × Byte) :=
  (List.range (16 * b)).filterMap (fun k =>
    let j := k / 16
    let here := els.filter (fun x => x.1 / 8 == k % 16)
    if here.isEmpty then none
    else
      let v := here.foldl (fun s x => if nfld x.2 j j = 1 then s ||| put 1 (x.1 % 8) else s &&& (255 - put 1 (x.1 % 8))) 0
      let m := here.foldl (fun s x => s ||| put 1 (x.1 % 8)) 0
      some (a + (k : Nat), BitVec.ofNat 8 v, BitVec.ofNat 8 m))

/-- The byte writes of one z-byte element at `a`. -/
def elemWrites (a : Int) (z x : Nat) : List (Int × Byte × Byte) :=
  (List.range z).map (fun i => (a + (i : Nat), BitVec.ofNat 8 (x / 256 ^ i), 0xFF))

end Sys2Proof.Machine
end

