-- ==== Sys2Proof/Machine/Matrix.lean ====
section
/-! DEFINITION. The matrix unit and the matrix-vector path: operands, scales, operations, loads and drains (R85 to R118, R483 to R486). -/

namespace Sys2Proof.Machine

/-- The K of an allowed operand pair, none when R41 does not allow it. -/
def pairK (a b : ElemType) : Option Nat :=
  match a, b with
  | .bf16, .bf16 | .bf16, .fp16 | .fp16, .bf16 | .fp16, .fp16 => some 2
  | .e4m3, .e4m3 | .e4m3, .e5m2 | .e5m2, .e4m3 | .e5m2, .e5m2 => some 4
  | .e2m1, .e2m1 => some 8
  | .int8, .int8 | .int8, .uint8 | .uint8, .int8 | .uint8, .uint8 => some 4
  | .int4, .int4 | .int4, .uint4 | .uint4, .int4 | .uint4, .uint4 => some 8
  | .fp32, .fp32 => some 1
  | _, _ => none

/-- The K of one operand type. -/
def ElemType.opK (t : ElemType) : Nat := (pairK t t).getD 1

/-- The bytes of a byte-aligned element. -/
def ElemType.bytes (t : ElemType) : Nat := t.bits / 8

/-- The accumulator kind of an operation's family (R67, R68). -/
def familyKind (t : ElemType) (scaled : Bool) : AccKind := if t.isInt && !scaled then .int32 else .fp32

/-- An operand element decoded under its block scale and per-tensor exponent (R67, R91). -/
def decodeOp (t : ElemType) (mx : Bool) (sc : Nat) (exp : Int) (x : Nat) : Val :=
  (if mx then mxScale t sc (decodeElem t x) else decodeElem t x).scale exp

/-- The per-tensor exponent of A in force. -/
def MxCfg.aScale (c : MxCfg) : Int := if c.apts then c.aexp else 0

/-- The per-tensor exponent of B in force. -/
def MxCfg.bScale (c : MxCfg) : Int := if c.bpts then c.bexp else 0

/-- The fields of MXCFG or MVCFG, or the status that refuses it (R89, R90). -/
def decodeMxCfg (w : BitVec 64) : MxCfg ⊕ Status :=
  match typeOfCode (fld w 57 54), typeOfCode (fld w 53 50) with
  | some a, some b =>
    let bad (t : ElemType) : Bool := t == .e3m2 || t == .e2m3 || t == .int32
    let mxBad (m : Bool) (t : ElemType) : Bool := m && !(t == .e4m3 || t == .e5m2 || t == .e2m1 || t == .int8)
    if bad a || bad b then .inr St.BAD_TYPE
    else if (pairK a b).isNone then .inr St.BAD_TYPE_PAIR
    else if mxBad (bit w 49) a || mxBad (bit w 48) b then .inr St.BAD_TYPE
    else if fld w 45 38 = 0x80 ∨ fld w 37 30 = 0x80 then .inr St.BAD_TYPE
    else .inl { a := a, b := b, amx := bit w 49, bmx := bit w 48, apts := bit w 47, bpts := bit w 46
                aexp := sx (fld w 45 38) 8, bexp := sx (fld w 37 30) 8, stride := 4 * fld w 29 14 }
  | _, _ => .inr St.BAD_TYPE

/-- The byte address of R88: the offset field in its unit plus the scalar register where it is enabled. -/
def Wk.addr (w : Wk) (ctx off unit : Nat) (ix : Bool) (s : Nat) : Int :=
  (off * unit : Nat) + (if ix then (w.c.sreg ctx s).toInt else 0)

/-- The matrix state changed. -/
def Wk.onMx (w : Wk) (f : Matrix → Matrix) : Wk := w.onCore (fun c => { c with mx := f c.mx })

/-- A block: 0 to 15 ACC, 16 to 31 YB. -/
def Wk.blk (w : Wk) (i : Nat) : AccBlock := tget .empty w.c.mx.blk i

/-- A block set. -/
def Wk.setBlk (w : Wk) (i : Nat) (b : AccBlock) : Wk := w.onMx (fun m => { m with blk := tset .empty m.blk i b })

/-- A window. -/
def Wk.win (w : Wk) (i : Nat) : Operand := tget .empty w.c.mx.win i

/-- A slot: 0, 1 for B0, B1 and 2, 3 for X0, X1. -/
def Wk.slot (w : Wk) (i : Nat) : Operand := tget .empty w.c.mx.slot i

/-- The A scale set of a block. -/
def Wk.ascale (w : Wk) (i : Nat) : List Nat := tget (List.replicate 16 0x7F) w.c.mx.ascale i

/-- The W scale set of a YB block. -/
def Wk.wscale (w : Wk) (i : Nat) : List Nat := tget (List.replicate 8 0x7F) w.c.mx.wscale i

/-- The X scale of a slot. -/
def Wk.xscale (w : Wk) (i : Nat) : Nat := tget 0x7F w.c.mx.xscale i

/-! ### Groups (R71 to R76) -/

/-- One element's products among the k positions of an operation. -/
def groupOf (steps : List (List (Option (Val × Nat)))) (i : Nat) : List (Val × Nat) :=
  steps.filterMap (fun step => nth none step i)

/-- A group's products added to one element, by the block's kind; an element with no product is unchanged (R71, R72). -/
def accElem (k : Option AccKind) (c : Word) (ps : List Val) : Word × NumEv :=
  if ps.isEmpty then (c, {})
  else match k with
    | some .int32 => accGroupInt c ps
    | _ => accGroupFloat c ps

/-- The open groups closed: every element takes its products (R71). [DESIGN CHOICE, log 140] -/
def AccBlock.close (b : AccBlock) : AccBlock × NumEv :=
  if b.grp.isEmpty then (b, {})
  else
    let r := b.els.mapIdx (fun i c => accElem b.kind c (nth [] b.grp i))
    ({ b with els := r.map (·.1), grp := [] }, r.foldl (fun a p => a.add p.2) {})

/-- The open groups of a block's elements, none where every one is empty. -/
def tidy (g : List (List Val)) : List (List Val) := if g.all (·.isEmpty) then [] else g

/-- One k position taken: each element that it gives a product adds that product to its own open group, which closes at its 16th, and an
∞ × 0 product counts as it is formed (R71, R79). [DEDUCED, log 19] [DESIGN CHOICE, log 140] -/
def AccBlock.push (b : AccBlock) (step : List (Option (Val × Nat))) : AccBlock × NumEv :=
  let r := b.els.mapIdx (fun i c =>
    let g := nth [] b.grp i
    match nth none step i with
    | none => ((c, g), ({} : NumEv))
    | some (p, inv) =>
      if g.length = 15 then
        let (c, ev) := accElem b.kind c (g ++ [p])
        ((c, []), { ev with inv := ev.inv + inv })
      else ((c, g ++ [p]), { inv := inv }))
  ({ b with els := r.map (·.1.1), grp := tidy (r.map (·.1.2)) }, r.foldl (fun a p => a.add p.2) {})

/-- The k positions of one instruction taken in order, and the groups closed at its end when `gc` is set (R71). -/
def AccBlock.pushAll (b : AccBlock) (steps : List (List (Option (Val × Nat)))) (gc : Bool) : AccBlock × NumEv :=
  let r := steps.foldl (fun (a : AccBlock × NumEv) s =>
    let x := a.1.push s
    (x.1, a.2.add x.2)) (b, {})
  if gc then
    let x := r.1.close
    (x.1, r.2.add x.2)
  else r

/-- A block cleared to a kind: every element −0 or 0 (R69). -/
def AccBlock.cleared (k : AccKind) (n : Nat) : AccBlock :=
  ⟨some k, List.replicate n (match k with | .fp32 => 0x80000000 | .int32 => 0), []⟩

/-- The block an instruction works on: cleared when it starts accumulation, refused with ACC_KIND when the kinds differ (R69, R70). -/
def AccBlock.begin (b : AccBlock) (clr : Bool) (k : AccKind) (n : Nat) : AccBlock ⊕ Status :=
  if clr then .inl (.cleared k n)
  else if b.kind = some k then .inl b
  else .inr St.ACC_KIND

/-! ### A windows (R96 to R100) -/

/-- The byte offsets of `n` new window rows of K elements, row by row, element by element (R99). -/
def aOffs (t : ElemType) (amode stride : Nat) (a : Int) (n : Nat) : List Int :=
  if t.planar then span a 64
  else
    let z := t.bytes
    (List.range n).flatMap (fun j => (List.range t.opK).flatMap (fun k =>
      span (a + (if amode = 0 then (4 * j + z * k : Nat) else if amode = 1 then (j * stride + z * k : Nat) else (k * stride + z * j : Nat))) z))

/-- The window rows decoded from the bytes of `aOffs`; row j takes the scale of window position `pos + j` (R91, R99). -/
def aRows (c : MxCfg) (scales : List Nat) (pos n : Nat) (bytes : List Byte) : List (List Val) :=
  let t := c.a
  (List.range n).map (fun j => (List.range t.opK).map (fun k =>
    let x := if t.planar then planeElem bytes t.bits (8 * j + k) else elemAt bytes t.bytes (j * t.opK + k)
    decodeOp t c.amx (nth 0x7F scales (pos + j)) c.aScale x))

/-- The status that refuses an MXM operation's A read, by mode, alignment and window (R98, R99, R483). [DEDUCED, log 23] -/
def mxmModeBad (annex : Bool) (t : ElemType) (amode ash ch : Nat) (a : Int) (win : Operand) : Option Status :=
  if annex ∧ (ch ≠ 3 ∨ (8 ≤ ash ∧ ash < 16)) then some St.MX_AMODE
  else if amode = 3 then some St.MX_AMODE
  else if t.planar ∧ (amode ≠ 0 ∨ (ash ≠ 0 ∧ ash ≠ 16) ∨ a % 64 ≠ 0) then some St.MX_AMODE
  else if amode = 2 ∧ ash ≠ 0 ∧ ash ≠ 16 then some St.MX_AMODE
  else if ash < 16 ∧ win.typ = none then some St.MX_EMPTY
  else if 1 ≤ ash ∧ ash ≤ 15 ∧ win.typ ≠ some t then some St.MX_WINDOW
  else none

/-- annex_accumulate of R486 on the products of one operation, in ascending k. -/
def annexAcc (c : Word) (ps : List (Val × Nat)) : Word × NumEv :=
  let inv : NumEv := { inv := ps.foldl (fun a p => a + p.2) 0 }
  let p (i : Nat) : Val := (nth (Val.nan, 0) ps i).1
  let addV (a b : Val) : Val × NumEv :=
    let (v, i) := exactAdd a b
    (f32 (toF32 v), { inv := i, ovf := b2n (ovfF32 v) })
  let (s0, e0) := addV (p 0) (p 1)
  if ps.length = 2 then
    let (r, e) := fp32Add c s0
    (r, ((inv.add e0).add e))
  else
    let (s1, e1) := addV (p 2) (p 3)
    let (s, e2) := addV s0 s1
    let (r, e) := fp32Add c s
    (r, (((inv.add e0).add e1).add e2).add e)

/-- The products of one operation: for each k, each of `rows` × 8 elements' product, none where the output is masked (R72, R101).
[DESIGN CHOICE, log 21] -/
def mxmSteps (ar br : List (List Val)) (K rows : Nat) (rowOn colOn kOn : Nat → Bool) : List (List (Option (Val × Nat))) :=
  (List.range K).map (fun k => (List.range 128).map (fun i =>
    let r := i / 8
    let n := i % 8
    if r < rows && rowOn r && colOn n then
      some (if kOn k then product (nth .nan (nth [] ar r) k) (nth .nan (nth [] br k) n) else (.fin false 0 0, 0))
    else none))

/-- The effect of one operation's products on its block: strict one by one after closing the group (R77), Annex by R486,
grouped otherwise (R71). [DEDUCED, log 19] -/
def applyProducts (annex : Bool) (strict gc : Bool) (b : AccBlock) (steps : List (List (Option (Val × Nat)))) : AccBlock × NumEv :=
  if strict then
    let (b, e0) := b.close
    let r := b.els.mapIdx (fun i c =>
      match groupOf steps i with
      | (p, inv) :: _ =>
        let (x, e) := fp32Add c p
        (x, { e with inv := e.inv + inv })
      | [] => (c, ({} : NumEv)))
    ({ b with els := r.map (·.1) }, r.foldl (fun a p => a.add p.2) e0)
  else if annex ∧ b.kind = some .fp32 then
    let r := b.els.mapIdx (fun i c =>
      let ps := groupOf steps i
      if ps.isEmpty then (c, {}) else annexAcc c ps)
    ({ b with els := r.map (·.1) }, r.foldl (fun a p => a.add p.2) {})
  else b.pushAll steps (gc || annex)

/-- One operation of an MXM: operation `i` of the entry, at the base address formed at expansion (R96 to R101, R483). A window keeps its
scale state while any row read under a scale is in it (R68, R100).
[DESIGN CHOICE, log 21] [DESIGN CHOICE, log 22] [DESIGN CHOICE, log 123] -/
def Wk.opMxm (w : Wk) (e : QEntry) (i : Nat) : Eng :=
  let x := e.word
  let annex := w.c.annex
  let blk := (fld x 57 54 + i) % 16
  let a := e.addr + (4 * i * fld x 7 0 : Nat)
  let ash := fld x 48 44
  let ch := fld x 52 51
  let cfg := w.c.mx.cfgM
  let rows := if annex then 8 else 16
  match w.handle e.ctx (fld x 37 34) false with
  | .inr st => .refuse w st
  | .inl buf =>
    if w.env.width = 4 ∧ ch = 3 then .refuse w St.MX_WIDTH
    else match mxmModeBad annex cfg.a (fld x 33 32) ash ch a (w.win blk) with
    | some st => .refuse w st
    | none =>
      let slot := w.slot (fld x 53 53)
      let tw := if ash = 0 then (w.win blk).typ.getD cfg.a else cfg.a
      match slot.typ with
      | none => .refuse w St.MX_EMPTY
      | some tb =>
        match pairK tw tb with
        | none => .refuse w St.BAD_TYPE_PAIR
        | some K =>
          let wscaled := (ash ≠ 0 && (cfg.amx || cfg.apts)) || (ash < rows && (w.win blk).scaled)
          let scaled := wscaled || slot.scaled
          match (w.blk blk).begin (bit x 49) (familyKind tw scaled) 128 with
          | .inr st => .refuse w st
          | .inl b =>
            let n := if ash = 0 then 0 else min ash rows
            let offs := if n = 0 then [] else aOffs cfg.a (fld x 33 32) cfg.stride a n
            if w.bufWait buf offs then .wait w
            else
              let (w, bytes, fl) := w.readBuf buf portFeeder e.ctx offs
              let new := aRows cfg (w.ascale blk) (rows - n) n bytes
              let win : Operand :=
                if ash = 0 then w.win blk
                else if rows ≤ ash then ⟨some cfg.a, wscaled, new⟩
                else ⟨some cfg.a, wscaled, (w.win blk).rows.drop n ++ new⟩
              let steps := mxmSteps win.rows slot.rows K rows
                (fun r => bit e.p r && bit e.sr r)
                (fun c => bit e.q c && bit e.sc c && (if c < 4 then ch % 2 == 1 else ch / 2 == 1))
                (fun k => bit e.q (8 + k) && bit e.sk k)
              let (b, ev) := applyProducts annex (tw == .fp32) (bit x 50) b steps
              let w := (w.setBlk blk b).onMx (fun m => { m with win := tset .empty m.win blk win })
              .done ((w.noteAcc fl).countNum ev)

/-- MXB: a B slot loaded and decoded from 32 bytes; of a plane group, those are the 8 bytes of each plane that hold one half (R48, R94). -/
def Wk.opMxb (w : Wk) (e : QEntry) : Eng :=
  let x := e.word
  let cfg := w.c.mx.cfgM
  let t := cfg.b
  let a := w.addr e.ctx (fld x 45 31) 4 (bit x 50) (fld x 49 46)
  let bm := fld x 56 55
  match w.handle e.ctx (fld x 54 51) false with
  | .inr st => .refuse w st
  | .inl buf =>
    if (if t.planar then bm == 1 || bm == 3 || decide (a % 64 ≠ 0) else decide (2 ≤ bm)) then .refuse w St.MX_AMODE
    else
      let half := if bm = 2 then 1 else 0
      let offs := if t.planar then (List.range t.bits).flatMap (fun j => span (a + (16 * j + 8 * half : Nat)) 8) else span a 32
      if w.bufWait buf offs then .wait w
      else
        let (w, bytes, fl) := w.readBuf buf portFeeder e.ctx offs
        let K := t.opK
        let rows := (List.range K).map (fun k => (List.range 8).map (fun n =>
          let v := if t.planar then bitsOf t.bits (fun j => bit (nth 0 bytes (8 * j + k)) n)
                   else elemAt bytes t.bytes (if bm = 0 then 8 * k + n else K * n + k)
          decodeOp t cfg.bmx (nth 0x7F w.c.mx.bscale n) cfg.bScale v))
        let o : Operand := ⟨some t, cfg.bmx || cfg.bpts, rows⟩
        .done ((w.onMx (fun m => { m with slot := tset .empty m.slot (fld x 57 57) o })).noteAcc fl)

/-- MXSC: block scales loaded (R93). -/
def Wk.opMxsc (w : Wk) (e : QEntry) : Eng :=
  let x := e.word
  let which := fld x 57 56
  let idx := fld x 55 52
  let rep := fld x 51 48
  let a := w.addr e.ctx (fld x 38 22) 1 (bit x 43) (fld x 42 39)
  match w.handle e.ctx (fld x 47 44) false with
  | .inr st => .refuse w st
  | .inl buf =>
    if rep ≠ 0 ∧ (which = 1 ∨ which = 3) then .refuse w St.MX_AMODE
    else
      let sz := if which = 0 then 16 else if which = 3 then 1 else 8
      let offs := span a (sz * (rep + 1))
      if w.bufWait buf offs then .wait w
      else
        let (w, bytes, fl) := w.readBuf buf portFeeder e.ctx offs
        let set (j : Nat) : List Nat := ((bytes.drop (sz * j)).take sz).map (·.toNat)
        let w := w.onMx (fun m =>
          if which = 0 then { m with ascale := iter (rep + 1) (fun j t => tset (List.replicate 16 0x7F) t ((idx + j) % 16) (set j)) m.ascale }
          else if which = 1 then { m with bscale := set 0 }
          else if which = 2 then { m with wscale := iter (rep + 1) (fun j t => tset (List.replicate 8 0x7F) t ((idx + j) % 16) (set j)) m.wscale }
          else { m with xscale := tset 0x7F m.xscale (idx % 2) ((set 0).headD 0x7F) })
        .done (w.noteAcc fl)

/-- MXLD: a block loaded; starts accumulation (R69, R102). -/
def Wk.opMxld (w : Wk) (e : QEntry) : Eng :=
  let x := e.word
  let tgt := bit x 53
  let n := if tgt then 8 else 128
  let a := w.addr e.ctx (fld x 42 28) 4 (bit x 47) (fld x 46 43)
  match w.handle e.ctx (fld x 51 48) false with
  | .inr st => .refuse w st
  | .inl buf =>
    let offs := span a (4 * n)
    if w.bufWait buf offs then .wait w
    else
      let (w, bytes, fl) := w.readBuf buf portFeeder e.ctx offs
      let int := bit x 52
      let els := (List.range n).map (fun i =>
        BitVec.ofNat 32 (if int then elemAt bytes 4 i else canonBits .fp32 (elemAt bytes 4 i)))
      let b : AccBlock := ⟨some (if int then .int32 else .fp32), els, []⟩
      .done ((w.setBlk (fld x 57 54 + (if tgt then 16 else 0)) b).noteAcc fl)

/-- The byte writes that store converted elements (index, bits) of a type at `a`, by R47 or as one plane group (R104). -/
def storeElems (a : Int) (t : ElemType) (els : List (Nat × Nat)) : List (Int × Byte × Byte) :=
  if t.planar then planeWrites a t.bits els
  else els.flatMap (fun x => elemWrites (a + (t.bytes * x.1 : Nat)) t.bytes x.2)

/-- MXD: a block drained, raw or converted, and emptied unless KEEP (R103, R104); a vector block drained to a 4- or 6-bit type fills the
other 120 positions of its plane group with 0 (R49). [DEDUCED, log 124] -/
def Wk.opMxd (w : Wk) (e : QEntry) : Eng :=
  let x := e.word
  let tgt := bit x 53
  let bi := fld x 57 54 + (if tgt then 16 else 0)
  let a := w.addr e.ctx (fld x 42 28) 4 (bit x 47) (fld x 46 43)
  let b0 := w.blk bi
  match w.handle e.ctx (fld x 51 48) true with
  | .inr st => .refuse w st
  | .inl buf =>
    match b0.kind with
    | none => .refuse w St.MX_EMPTY
    | some k =>
      let src : ElemType := match k with | .fp32 => .fp32 | .int32 => .int32
      let cv : Option (Option Cvt) :=
        if bit x 27 then
          match w.cvt (w.c.sreg e.ctx (fld x 26 23)) with
          | some c => if c.src = src ∧ c.srcMx = false ∧ c.dstMx = false then some (some c) else none
          | none => none
        else some none
      match cv with
      | none => .refuse w St.BAD_CVT
      | some cv =>
        let dt : ElemType := match cv with | some c => c.dst | none => src
        if dt.planar ∧ a % 64 ≠ 0 then .refuse w St.MX_AMODE
        else
          let (b, ev) := b0.close
          let on (i : Nat) : Bool :=
            if tgt then bit e.p i && bit e.sr i
            else bit e.p (i / 8) && bit e.sr (i / 8) && bit e.q (i % 8) && bit e.sc (i % 8)
          let idx := (List.range b.els.length).filter on
          let out := idx.map (fun i =>
            let v := (nth 0 b.els i).toNat
            match cv with
            | none => (i, v, ({} : NumEv))
            | some c =>
              let (y, ev) := c.elem 0 (w.uFor c e.ctx i) v
              (i, y, ev))
          let rest := if tgt && dt.planar then (List.range 120).map (fun i => (i + 8, 0)) else []
          let ws := storeElems a dt (out.map (fun o => (o.1, o.2.1)) ++ rest)
          if w.bufWait buf (ws.map (·.1)) then .wait w
          else
            let (w', fl) := w.writeBuf buf portFeeder ws
            let w' := w'.setBlk bi (if bit x 52 then b else .empty)
            .done ((w'.noteAcc fl).countNum (out.foldl (fun a o => a.add o.2.2) ev))

/-- A 16 × 8 tile of elements decoded: element index 8i + j, by R47 or as one plane group (R105). -/
def tileVals (t : ElemType) (exp : Int) (bytes : List Byte) : List Val :=
  (List.range 128).map (fun i =>
    decodeOp t false 0x7F exp (if t.planar then planeElem bytes t.bits i else elemAt bytes t.bytes i))

/-- The bytes of 128 packed elements of a type. -/
def ElemType.tileBytes (t : ElemType) : Nat := 16 * t.bits

/-- MXEW: an element-wise product of two tiles added to a block (R105); with no CH field it runs on a core of N = 4 too (R115).
[DEDUCED, log 20] [DEDUCED, log 126] -/
def Wk.opMxew (w : Wk) (e : QEntry) : Eng :=
  let x := e.word
  let cfg := w.c.mx.cfgM
  let bi := fld x 57 54
  let aa : Int := (4 * fld x 45 31 : Nat)
  let ba : Int := (4 * fld x 30 16 : Nat)
  match w.handle e.ctx (fld x 53 50) false, w.handle e.ctx (fld x 49 46) false with
  | .inr st, _ => .refuse w st
  | _, .inr st => .refuse w st
  | .inl ab, .inl bb =>
    if cfg.amx || cfg.bmx then .refuse w St.MX_AMODE
    else if cfg.a = .fp32 ∨ (pairK cfg.a cfg.b).isNone then .refuse w St.BAD_TYPE_PAIR
    else if cfg.a.planar ∧ (aa % 64 ≠ 0 ∨ ba % 64 ≠ 0) then .refuse w St.MX_AMODE
    else match (w.blk bi).begin (bit x 15) (familyKind cfg.a (cfg.apts || cfg.bpts)) 128 with
    | .inr st => .refuse w st
    | .inl b =>
      let ao := span aa cfg.a.tileBytes
      let bo := span ba cfg.b.tileBytes
      if w.bufWait ab ao || w.bufWait bb bo then .wait w
      else
        let (w, abytes, f1) := w.readBuf ab portFeeder e.ctx ao
        let (w, bbytes, f2) := w.readBuf bb portFeeder e.ctx bo
        let av := tileVals cfg.a cfg.aScale abytes
        let bv := tileVals cfg.b cfg.bScale bbytes
        let step := (List.range 128).map (fun i =>
          if bit e.p (i / 8) && bit e.sr (i / 8) && bit e.q (i % 8) && bit e.sc (i % 8) then
            some (product (nth .nan av i) (nth .nan bv i))
          else none)
        let (b, ev) := b.pushAll [step] true
        .done (((w.setBlk bi b).noteAcc (f1.or f2)).countNum ev)

/-- MXCFG: the matrix configuration set (R89, R90). -/
def Wk.opMxcfg (w : Wk) (e : QEntry) : Eng :=
  match decodeMxCfg e.word with
  | .inr st => .refuse w st
  | .inl c => .done (w.onMx (fun m => { m with cfgM := c }))

/-- MVCFG: the vector-path configuration set (R89, R90). -/
def Wk.opMvcfg (w : Wk) (e : QEntry) : Eng :=
  match decodeMxCfg e.word with
  | .inr st => .refuse w st
  | .inl c => .done (w.onMx (fun m => { m with cfgV := c }))

/-- MVX: an X slot loaded (R106). [DEDUCED, log 23] [DESIGN CHOICE, log 125] -/
def Wk.opMvx (w : Wk) (e : QEntry) : Eng :=
  let x := e.word
  let cfg := w.c.mx.cfgV
  let t := cfg.b
  let a := w.addr e.ctx (fld x 47 31) 1 (bit x 52) (fld x 51 48)
  let m := (a % 64 / 2).toNat
  match w.handle e.ctx (fld x 56 53) false with
  | .inr st => .refuse w st
  | .inl buf =>
    if t.planar ∧ (a % 2 ≠ 0 ∨ 8 ≤ m) then .refuse w St.MX_AMODE
    else
      let offs := if t.planar then span (a - a % 64) 64 else span a (16 * t.bytes)
      if w.bufWait buf offs then .wait w
      else
        let (w, bytes, fl) := w.readBuf buf portFeeder e.ctx offs
        let xs := fld x 57 57
        let row := (List.range 16).map (fun k =>
          decodeOp t cfg.bmx (w.xscale xs) cfg.bScale
            (if t.planar then planeElem bytes t.bits (16 * m + k) else elemAt bytes t.bytes k))
        let o : Operand := ⟨some t, cfg.bmx || cfg.bpts, [row]⟩
        .done ((w.onMx (fun m => { m with slot := tset .empty m.slot (2 + xs) o })).noteAcc fl)

/-- One operation of an MVM: rows 0 to 3 of W come through the feeder port, and rows 4 to 7 of an 8- or 16-bit type through the vector
port (R107, R108). [DEDUCED, log 23] -/
def Wk.opMvm (w : Wk) (e : QEntry) (i : Nat) : Eng :=
  let x := e.word
  let cfg := w.c.mx.cfgV
  let t := cfg.a
  let yb := (fld x 57 54 + i) % 16
  let a := e.addr + (4 * i * fld x 20 13 : Nat)
  let slot := w.slot (2 + fld x 53 53)
  match w.handle e.ctx (fld x 51 48) false with
  | .inr st => .refuse w st
  | .inl buf =>
    if t.planar ∧ a % 64 ≠ 0 then .refuse w St.MX_AMODE
    else match slot.typ with
    | none => .refuse w St.MX_EMPTY
    | some tb =>
      if t = .fp32 ∨ (pairK t tb).isNone then .refuse w St.BAD_TYPE_PAIR
      else match (w.blk (16 + yb)).begin (bit x 52) (familyKind t (cfg.amx || cfg.apts || slot.scaled)) 8 with
      | .inr st => .refuse w st
      | .inl b =>
        let near := if t.planar then t.tileBytes else t.tileBytes / 2
        let offs := span a near
        let voffs := span (a + near) (t.tileBytes - near)
        if w.bufWait buf (offs ++ voffs) then .wait w
        else
          let (w, fb, f1) := w.readBuf buf portFeeder e.ctx offs
          let (w, vb, f2) := w.readBuf buf portVector e.ctx voffs
          let bytes := fb ++ vb
          let fl := f1.or f2
          let xr := slot.rows.headD []
          let wv (j k : Nat) : Val := decodeOp t cfg.amx (nth 0x7F (w.wscale yb) j) cfg.aScale
            (if t.planar then planeElem bytes t.bits (16 * j + k) else elemAt bytes t.bytes (16 * j + k))
          let steps := (List.range 16).map (fun k => (List.range 8).map (fun j =>
            if bit e.p j && bit e.sr j then
              some (if bit e.sc k then product (wv j k) (nth .nan xr k) else (.fin false 0 0, 0))
            else none))
          let (b, ev) := b.pushAll steps true
          .done (((w.setBlk (16 + yb) b).noteAcc fl).countNum ev)

/-! ### Acceptance (R109 to R118) -/

/-- The frame cycles a ramp level allows (R114). -/
def rampAllows (level frame : Nat) : Bool :=
  match level with
  | 0 => false
  | 1 => frame == 0
  | 2 => frame == 0 || frame == 2
  | 3 => frame < 3
  | _ => true

/-- The ramp with an operation ready in this cycle: from level 0 it becomes 1 at once and a new period begins (R114). -/
def Ramp.onReady (r : Ramp) (cyc : Nat) : Ramp :=
  if r.level = 0 then ⟨1, cyc, true⟩ else { r with ready := true }

/-- The ramp at the end of its 8-cycle period (R114). -/
def Ramp.periodEnd (r : Ramp) : Ramp :=
  ⟨if r.ready then min 4 (r.level + 1) else r.level - 1, r.start + 8, false⟩

/-- The ramp of the matrix unit (0) or of the vector path (1). -/
def Matrix.ramp (m : Matrix) (u : Nat) : Ramp := if u = 0 then m.rampM else m.rampV

/-- A ramp set. -/
def Matrix.setRamp (m : Matrix) (u : Nat) (r : Ramp) : Matrix := if u = 0 then { m with rampM := r } else { m with rampV := r }

/-- The opcode of an instruction word (R173). -/
def opc (x : BitVec 64) : Nat := fld x 63 58

/-- The block an operation writes or drains, as the block table numbers it. -/
def opBlock (x : BitVec 64) (done : Nat) : Nat :=
  match opc x with
  | 0x20 => (fld x 57 54 + done) % 16
  | 0x2A => 16 + (fld x 57 54 + done) % 16
  | 0x24 => fld x 57 54 + 16 * fld x 53 53
  | 0x25 => fld x 57 54 + 16 * fld x 53 53
  | _ => fld x 57 54

/-- The type of an operation's A operand: a reused window's own, else the configuration's (R78, R100). -/
def Wk.opType (w : Wk) (x : BitVec 64) (i : Nat) : ElemType :=
  if fld x 48 44 = 0 then (w.win ((fld x 57 54 + i) % 16)).typ.getD w.c.mx.cfgM.a else w.c.mx.cfgM.a

/-- The feeder cycles of a 16 × 8 tile operand (R105, R110). -/
def ElemType.tileCycles (t : ElemType) : Nat := ceilDiv t.tileBytes 64

/-- The port cycles of an MXEW's two reads: together when both share one port (R110). -/
def Wk.mxewCycles (w : Wk) (e : QEntry) : Nat :=
  let a := w.c.mx.cfgM.a.tileCycles
  let b := w.c.mx.cfgM.b.tileCycles
  match w.handle e.ctx (fld e.word 53 50) false, w.handle e.ctx (fld e.word 49 46) false with
  | .inl x, .inl y => if x.mem = y.mem then a + b else max a b
  | _, _ => a + b

/-- The cycles that the feeder port needs for some accesses: the most lines in any one bank of a read, and each line of a write (R151). -/
def feederCycles (l : List PortReq) : Nat :=
  let f := l.filter (fun x => x.port == portFeeder)
  (f.map (fun x => if x.write then (f.filter (fun y => y.write)).length
    else f.countP (fun y => !y.write && y.mem == x.mem && y.bank == x.bank))).foldl max 0

/-- Cycles from acceptance to the block's write, and cycles of occupancy (R110, R115, R151); `new` are the operation's port accesses.
[DESIGN CHOICE, log 127] -/
def opTiming (w : Wk) (e : QEntry) (new : List PortReq) : Nat × Nat :=
  match opc e.word with
  | 0x20 => if w.opType e.word e.done = .fp32 then (26, max 16 (feederCycles new)) else (11, max 1 (feederCycles new))
  | 0x26 => (14, max 4 (w.mxewCycles e) * (if w.env.width = 4 then 2 else 1))
  | 0x24 => (10, max (if bit e.word 53 then 1 else 8) (feederCycles new))
  | 0x2A => if w.c.mx.cfgV.a.bits = 16 then (10, 2) else (9, 1)
  | _ => (1, 1)

/-- Is this an instruction whose operations the array or the path accepts one by one? (MXM, MXLD, MXEW, MVM: R110, R118)
[DEDUCED, log 24] -/
def isArrayOp (x : BitVec 64) : Bool := opc x == 0x20 || opc x == 0x24 || opc x == 0x26 || opc x == 0x2A

/-- The operations an instruction expands into (R97, R107). -/
def opCount (x : BitVec 64) : Nat :=
  match opc x with
  | 0x20 => fld x 11 8 + 1
  | 0x2A => fld x 24 21 + 1
  | _ => 1

/-- The address formed when the instruction is expanded (R88). -/
def Wk.expandAddr (w : Wk) (e : QEntry) : Int :=
  let x := e.word
  match opc x with
  | 0x20 => w.addr e.ctx (fld x 26 12) 4 (bit x 31) (fld x 30 27)
  | 0x2A => w.addr e.ctx (fld x 42 28) 4 (bit x 47) (fld x 46 43)
  | _ => 0

/-- One operation of the instruction at a queue's head, expanded. -/
def Wk.runOp (w : Wk) (e : QEntry) : Eng :=
  match opc e.word with
  | 0x20 => w.opMxm e e.done
  | 0x2A => w.opMvm e e.done
  | 0x24 => w.opMxld e
  | _ => w.opMxew e

end Sys2Proof.Machine
end

