-- ==== Sys2Proof/Machine/Sync.lean ====
section
/-! DEFINITION. Semaphores, work counters and a core's side of barriers (R270 to R288, R487). -/

namespace Sys2Proof.Machine

/-- The physical semaphore a logical identifier of a context names (R270). -/
def Core.semPhys (c : Core) (ctx id : Nat) : Option Nat :=
  let m := c.reg (0xC000 + 0x100 * ctx + 4 * id)
  if bit m 31 then some (fld m 5 0) else none

/-- The context and identifier that map a physical semaphore (R270). -/
def Core.semOwner (c : Core) (p : Nat) : Option (Nat × Nat) :=
  (List.range 256).findSome? (fun k => if c.semPhys (k / 64) (k % 64) = some p then some (k / 64, k % 64) else none)

/-- A physical semaphore. -/
def Core.sem (c : Core) (p : Nat) : Sem := tget .reset c.sems p

/-- A semaphore changed. -/
def Wk.modSem (w : Wk) (p : Nat) (f : Sem → Sem) : Wk := w.onCore (fun c => { c with sems := tmod .reset c.sems p f })

/-- A semaphore's width (R271). -/
def semWidth (annex : Bool) : Nat := if annex then 14 else 16

/-- Does a value satisfy a wait? (R272, R370) -/
def waitHolds (annex cmp : Bool) (thresh value : Nat) : Bool :=
  if cmp then atOrAfter (semWidth annex) thresh value else decide (thresh ≤ value)

/-- A status of the synchronisation chapter recorded with the semaphore or counter concerned (R288). -/
def Wk.semErr (w : Wk) (phys : Nat) (st : Status) : Wk := w.recErr 0xD200 phys st

/-- A last-signaller record of this cycle (R276). -/
def Wk.lsig (w : Wk) (kind : Nat) (die : DieAddr) (core : CoreCode) : LSig := ⟨kind, die, core, w.env.ts⟩

/-- The semaphore in a cycle, its account of the cycle begun (R276). -/
def Sem.opened (s : Sem) (cyc : Nat) : Sem :=
  if s.at_ = some cyc then s else { s with at_ := some cyc, start := s.value, taken := 0, sum := 0, nsig := 0 }

/-- The value that waits of cycle `cyc` are tested against: what the previous cycle left, less the grants of this one (R276). -/
def Sem.grantable (s : Sem) (cyc : Nat) : Nat := if s.at_ = some cyc then s.start - s.taken else s.value

/-- The value that a register read of cycle `cyc` returns: that from before everything that reaches the semaphore in it (R17, R276). -/
def Sem.before (s : Sem) (cyc : Nat) : Nat := if s.at_ = some cyc then s.start else s.value

/-- A value with the signals of a cycle added once, in Annex mode, in wrap mode or saturating (R271, R276 step 3, R487). -/
def semSum (annex wrap : Bool) (v n : Nat) : Nat :=
  if annex then (v + n) % 2 ^ 14 else if wrap then (v + n) % 2 ^ 16 else min 65535 (v + n)

/-- The ordering key of R277 of a signal's record. -/
def LSig.key (l : LSig) : Nat := 4096 * l.sdie.toNat + l.score.toNat

/-- The record kept when a second signal comes in one cycle: the one first in the order of R277 (R276). -/
def Sem.record (s : Sem) (ls : LSig) : Option LSig :=
  match s.lsig with
  | some o => if s.nsig ≠ 0 ∧ o.key ≤ ls.key then some o else some ls
  | none => some ls

/-- A semaphore with a signal of this cycle counted: the grants of the cycle come first, then the sum of its signals (R276 step 3). -/
def Sem.signal (s : Sem) (annex wrap : Bool) (cyc n : Nat) (ls : LSig) : Sem :=
  let o := s.opened cyc
  { o with value := semSum annex wrap (o.start - o.taken) (o.sum + n), lsig := o.record ls, sum := o.sum + n, nsig := o.nsig + 1 }

/-- Do the signals of this cycle saturate a semaphore with `n` more, and not without? (R271, R276) -/
def Sem.saturates (s : Sem) (cyc n : Nat) : Bool :=
  let o := s.opened cyc
  decide (65535 < o.start - o.taken + (o.sum + n)) && decide (o.start - o.taken + o.sum ≤ 65535)

/-- A semaphore after a consumption: a grant of this cycle, before its signals, which a re-initialisation of the cycle lets stand (R272, R276). -/
def Sem.take (s : Sem) (annex wrap : Bool) (cyc n : Nat) : Sem :=
  let o := s.opened cyc
  { o with taken := o.taken + n
           value := if o.initAt = some cyc then o.value else semSum annex wrap (o.start - (o.taken + n)) o.sum }

/-- A signal of `n` applied to a physical semaphore (R271, R276, R286, R487): dropped on an orphaned one, and in a cycle that
re-initialises it. -/
def Wk.addSignal (w : Wk) (p n : Nat) (ls : LSig) : Wk :=
  let s := w.c.sem p
  let cyc := w.env.cyc
  if s.orph then w.bump 0xD208 1
  else if s.initAt = some cyc then w.bump 0xD208 1
  else
    let w2 := w.modSem p (fun s => s.signal w.c.annex w.env.wrap cyc n ls)
    if !w.c.annex && !w.env.wrap && s.saturates cyc n then
      (((w2.modSem p (fun s => { s with satf := true })).bump 0xD204 1).semErr p St.SEM_SAT).spanFault St.SEM_SAT ((w.c.semOwner p).getD (0, 0)).1
    else w2

/-- A consumption from a semaphore (R272, R276). -/
def Wk.consume (w : Wk) (p n : Nat) : Wk := w.modSem p (fun s => s.take w.c.annex w.env.wrap w.env.cyc n)

/-- A semaphore re-initialised (R273, R276 step 4): the signals of this cycle are discarded and counted. -/
def Wk.initSem (w : Wk) (p value : Nat) (ls : LSig) : Wk :=
  let s := w.c.sem p
  let cyc := w.env.cyc
  let w := if s.at_ = some cyc then w.bump 0xD208 s.nsig else w
  w.modSem p (fun s => { s.opened cyc with value := value % 2 ^ semWidth w.c.annex, orph := false, satf := false, lsig := some ls
                                           sum := 0, nsig := 0, initAt := some cyc })

/-- A reply to a remote wait (R277). -/
def Wk.waitReply (w : Wk) (r : RWait) (st : Status) : Wk :=
  w.sendHall 3 r.sdie r.score.toNat 0 0 [syncWord0 3 0 0 0 false false r.tag, syncWord1 w.env.die st 0]

/-- A remote-wait entry (R278). -/
def Core.rwait (c : Core) (i : Nat) : Option RWait := tget none c.rwaits i

/-- A remote-wait entry set or freed. -/
def Wk.setRWait (w : Wk) (i : Nat) (r : Option RWait) : Wk := w.onCore (fun c => { c with rwaits := tset none c.rwaits i r })

/-- Remote-wait entries tested in ascending index after a value has changed (R276 step 1). -/
def Wk.serveRWaits (w : Wk) : Wk :=
  iter 16 (fun i w =>
    match w.c.rwait i with
    | none => w
    | some r =>
      if (w.c.sem r.phys).orph then w
      else if waitHolds w.c.annex r.cmp r.thresh ((w.c.sem r.phys).grantable w.env.cyc) then
        let w := if r.cons then w.consume r.phys r.thresh else w
        (w.setRWait i none).waitReply r St.OK
      else w) w

/-- A semaphore orphaned: its remote waiters are answered, and the orphaning marks the span dirty (R285, R286). -/
def Wk.orphanSem (w : Wk) (p ctx : Nat) : Wk :=
  let w := w.modSem p (fun s => { s with orph := true })
  let w := iter 16 (fun i w =>
    match w.c.rwait i with
    | some r => if r.phys = p then (w.setRWait i none).waitReply r St.ORPHANED else w
    | none => w) w
  w.spanFault St.ORPHANED ctx

/-- Every object a context owns orphaned: its semaphores, its enabled work counters and its barrier participations (R285 to R287).
[DEDUCED, log 130] -/
def Wk.orphanCtx (w : Wk) (ctx : Nat) : Wk :=
  let w := iter 64 (fun id w =>
    match w.c.semPhys ctx id with
    | some p => if (w.c.sem p).orph then w else w.orphanSem p ctx
    | none => w) w
  let w := iter 4 (fun k w =>
    let ctl := w.reg (0xD100 + 16 * k)
    if bit ctl 31 ∧ fld ctl 1 0 = ctx ∧ tget false w.c.wcOrph k = false then
      (w.onCore (fun c => { c with wcOrph := tset false c.wcOrph k true })).spanFault St.ORPHANED ctx
    else w) w
  iter 31 (fun ch w =>
    if bit (w.reg 0xD140) ch ∧ fld (w.reg (0xD180 + 4 * ch)) 7 6 = ctx then w.raise (.barOrphan ch) else w) w

/-- What ends a wait: its status to S[SD] under SEN, otherwise a status other than OK faults the context (R275).
[DEDUCED, log 39] -/
def Wk.endWait (w : Wk) (e : QEntry) (phys : Nat) (st : Status) : Eng :=
  let w := if st = St.OK then w else w.semErr phys st
  let w := if st = St.SEM_TIMEOUT then w.timeDep else w
  if bit e.word 5 then .done (w.setS e.ctx (fld e.word 4 1) (st.setWidth 32))
  else if st = St.OK then .done w
  else .refuse w st

/-- The target of a remote synchronisation instruction: die and core (R272). -/
def Wk.remTarget (w : Wk) (e : QEntry) : DieAddr × Nat :=
  (if fld e.word 54 53 = 2 then (w.c.sreg e.ctx (fld e.word 40 37)).setWidth 16 else w.env.die, fld e.word 52 41)

/-- SSIG at the head of queue `q` (R272, R274): a remote one completes when its message has been admitted. -/
def Wk.opSsig (w : Wk) (e : QEntry) (q : Nat) : Eng :=
  let x := e.word
  if fld x 54 53 = 0 then
    match w.c.semPhys e.ctx (fld x 34 29) with
    | none => .refuse (w.semErr 0 St.SEM_UNMAPPED) St.SEM_UNMAPPED
    | some p => .done (w.addSignal p (fld x 28 13) (w.lsig 0 w.env.die w.env.code)).serveRWaits
  else if e.started then
    if e.done ≤ w.c.hallOut then .done w else .wait w
  else
    let t := w.remTarget e
    let w := w.sendHall 3 t.1 t.2 0 0
      [syncWord0 1 (fld x 36 35) (fld x 34 29) (fld x 28 13) false false q, syncWord1 w.env.die 0 0]
    .wait (if q = 0 then w.onCore (fun c => { c with sync0 := c.sync0.map (fun e => { e with started := true, done := c.hallIn }) })
      else w.modHead q (fun e => { e with started := true, done := w.c.hallIn }))

/-- The head of queue `q` changed, the sequencer's own instruction for code 0. -/
def Wk.modHeadOf (w : Wk) (q : Nat) (f : QEntry → QEntry) : Wk :=
  if q = 0 then w.onCore (fun c => { c with sync0 := c.sync0.map f }) else w.modHead q f

/-- A target of a remote wait or claim as one number (R277). -/
def targetKey (t : DieAddr × Nat) : Int := ((4096 * t.1.toNat + t.2 : Nat) : Int)

/-- The head of a queue, or the sequencer's own instruction for code 0, marked as having sent its message to a target. -/
def Wk.markStarted (w : Wk) (q : Nat) (t : DieAddr × Nat) : Wk := w.modHeadOf q (fun e => { e with started := true, addr := targetKey t })

/-- Is this Hallway message a request that queue `q` has sent? (R277) -/
def Flit.asks (q : Nat) (f : Flit) : Bool :=
  f.h.vc == 0 && f.h.kind == 3 && [1, 2, 4].contains (fld (f.word 0) 63 60) && fld (f.word 0) 33 30 == q

/-- The Hallway message of a discarded remote instruction of queue `q` taken back, where the mesh has not admitted it; the reply to one that
has gone is expected and will be discarded (R199, R200, R285). -/
def Wk.forget (w : Wk) (e : QEntry) (q : Nat) : Wk :=
  if e.started = false ∨ fld e.word 54 53 = 0 then w
  else match w.c.hall.findIdx? (Flit.asks q) with
    | some i =>
      let back (f : QEntry) : QEntry := if opc f.word = 0x10 ∧ f.started ∧ w.c.hallOut + i + 1 < f.done then { f with done := f.done - 1 } else f
      w.onCore (fun c => { c with hall := c.hall.eraseIdx i, hallIn := c.hallIn - 1, sync0 := c.sync0.map back
                                  queues := c.queues.map (fun x => (x.1, x.2.map back)) })
    | none =>
      if opc e.word = 0x11 then w.onCore (fun c => { c with stale := c.stale ++ [(q, e.addr)] })
      else if opc e.word = 0x13 then w.onCore (fun c => { c with stale := c.stale ++ [(q + 8, e.addr)] })
      else w

/-- A local wait that has reached the head of its queue: the cycle, and its timeout in cycles, 0 for none (R275). -/
def Wk.stampHead (w : Wk) (q timeout : Nat) : Wk :=
  w.modHeadOf q (fun e => { e with headAt := some w.env.cyc, done := timeout })

/-- Is a switch draining this context, so that its pending waits end with PREEMPTED? (R192, R285) [DEDUCED, log 39] -/
def Wk.preempting (w : Wk) (ctx : Nat) : Bool :=
  match w.c.sw with
  | some s => s.draining && (w.c.ctx ctx).state == .draining
  | none => false

/-- SWAIT at the head of queue `q` (R272, R274, R275, R285, R487). -/
def Wk.opSwait (w : Wk) (e : QEntry) (q : Nat) : Eng :=
  let x := e.word
  let thresh := fld x 28 13
  if fld x 54 53 = 0 then
    if w.c.annex ∧ 16383 < thresh then .refuse (w.semErr 0 St.ANNEX_RANGE) St.ANNEX_RANGE
    else match w.c.semPhys e.ctx (fld x 34 29) with
    | none => .refuse (w.semErr 0 St.SEM_UNMAPPED) St.SEM_UNMAPPED
    | some p =>
      let s := w.c.sem p
      if s.orph then w.endWait e p St.ORPHANED
      else if waitHolds w.c.annex (bit x 11) thresh (s.grantable w.env.cyc) then
        (if bit x 12 then w.consume p thresh else w).endWait e p St.OK
      else if w.preempting e.ctx then w.endWait e p St.PREEMPTED
      else if e.headAt.isSome then .wait w
      else .wait (w.stampHead q (if bit x 10 then (w.c.sreg e.ctx (fld x 9 6)).toNat else 0))
  else if e.started then
    if w.preempting e.ctx then (w.forget e q).endWait e 0 St.PREEMPTED else .wait w
  else
    let t := w.remTarget e
    let tmo := if bit x 10 then (w.c.sreg e.ctx (fld x 9 6)).toNat else 0
    .wait ((w.sendHall 3 t.1 t.2 0 0
      [syncWord0 2 (fld x 36 35) (fld x 34 29) thresh (bit x 12) (bit x 11) q, syncWord1 w.env.die 0 tmo]).markStarted q t)

/-- take of R279 on counter `k`: the index handed out, with the value advanced. -/
def Wk.takeWc (w : Wk) (k n : Nat) : Wk × Nat :=
  let v := (w.reg (0xD104 + 16 * k)).toNat
  let lim := (w.reg (0xD108 + 16 * k)).toNat
  if lim ≤ v then (w, 0xFFFFFFFF)
  else (w.setReg (0xD104 + 16 * k) (BitVec.ofNat 32 (min (v + n) lim)), v)

/-- The status of a claim by a context on counter `k` (R279, R286). -/
def Wk.claimStatus (w : Wk) (ctx k : Nat) : Status :=
  let ctl := w.reg (0xD100 + 16 * k)
  if tget false w.c.wcOrph k then St.ORPHANED
  else if bit ctl 31 = true ∧ fld ctl 1 0 = ctx then St.OK
  else St.WC_OFF

/-- WTAKE at the head of queue `q` (R279). -/
def Wk.opWtake (w : Wk) (e : QEntry) (q : Nat) : Eng :=
  let x := e.word
  let k := fld x 34 33
  if fld x 54 53 = 0 then
    let st := w.claimStatus e.ctx k
    if st = St.OK then
      let (w, v) := w.takeWc k (fld x 32 17)
      .done (w.setS e.ctx (fld x 16 13) (BitVec.ofNat 32 v))
    else .refuse (w.semErr k st) st
  else if e.started then .wait w
  else
    let t := w.remTarget e
    .wait ((w.sendHall 3 t.1 t.2 0 0
      [syncWord0 4 (fld x 36 35) k 0 false false q, syncWord1 w.env.die 0 (fld x 32 17)]).markStarted q t)

/-- WSET (R279). -/
def Wk.opWset (w : Wk) (e : QEntry) : Eng :=
  let x := e.word
  let k := fld x 54 53
  let w := ((w.setReg (0xD100 + 16 * k) (BitVec.ofNat 32 (put 1 31 + e.ctx))).setReg (0xD104 + 16 * k)
    (w.c.sreg e.ctx (fld x 52 49))).setReg (0xD108 + 16 * k) (w.c.sreg e.ctx (fld x 48 45))
  .done (w.onCore (fun c => { c with wcOrph := tset false c.wcOrph k false }))

/-- SINIT (R273). -/
def Wk.opSinit (w : Wk) (e : QEntry) : Eng :=
  let x := e.word
  match w.c.semPhys e.ctx (fld x 54 49) with
  | none => .refuse (w.semErr 0 St.SEM_UNMAPPED) St.SEM_UNMAPPED
  | some p => .done (w.initSem p (fld x 48 33) (w.lsig 0 w.env.die w.env.code)).serveRWaits

/-- SBAR (R283). -/
def Wk.opSbar (w : Wk) (e : QEntry) : Eng :=
  let ch := fld e.word 54 50
  if ch = 31 ∨ bit (w.reg 0xD140) ch = false then .refuse (w.semErr 0 St.BAR_OFF) St.BAR_OFF
  else if tget false w.c.barArr ch then .done ((w.semErr 0 St.BAR_TWICE).spanFault St.BAR_TWICE e.ctx)
  else .done ((w.onCore (fun c => { c with barArr := tset false c.barArr ch true })).raise (.barArrive ch))

/-- A synchronisation instruction at the head of queue `q`, code 0 being the sequencer (R176). -/
def Wk.runSync (w : Wk) (e : QEntry) (q : Nat) : Eng :=
  match opc e.word with
  | 0x10 => w.opSsig e q
  | 0x11 => w.opSwait e q
  | 0x12 => w.opSinit e
  | 0x13 => w.opWtake e q
  | 0x14 => w.opWset e
  | _ => w.opSbar e

/-! ### Deliveries (R277, R278, R280) -/

/-- A delivered SIG (R278, R286). -/
def Wk.deliverSig (w : Wk) (f : Flit) : Wk :=
  let a := f.word 0
  match w.c.semPhys (fld a 59 58) (fld a 57 52) with
  | none => ((w.bump 0xD208 1).semErr 0 St.SEM_UNMAPPED).spanFault St.SEM_UNMAPPED (fld a 59 58)
  | some p =>
    let sdie : DieAddr := BitVec.ofNat 16 (fld (f.word 1) 63 48)
    let score : CoreCode := BitVec.ofNat 12 f.h.src
    let w := if (w.c.sem p).orph then (w.semErr p St.ORPHANED).spanFault St.ORPHANED (fld a 59 58) else w
    let kind := if sdie = w.env.die ∧ score = w.env.code then 0 else 1
    (w.addSignal p (fld a 51 36) (w.lsig kind sdie score)).serveRWaits

/-- A delivered WAIT, tested at once as a grant of this cycle (R275, R276, R278, R286, R487). -/
def Wk.deliverWait (w : Wk) (f : Flit) : Wk :=
  let a := f.word 0
  let b := f.word 1
  let r : RWait := { cons := bit a 35, cmp := bit a 34, phys := 0, tag := fld a 33 30, thresh := fld a 51 36
                     sdie := BitVec.ofNat 16 (fld b 63 48), score := BitVec.ofNat 12 f.h.src, limit := none }
  match w.c.semPhys (fld a 59 58) (fld a 57 52) with
  | none => w.waitReply r St.SEM_UNMAPPED
  | some p =>
    let r := { r with phys := p, limit := if fld b 31 0 = 0 then none else some (w.env.cyc + fld b 31 0) }
    if w.c.annex ∧ 16383 < r.thresh then w.waitReply r St.ANNEX_RANGE
    else if (w.c.sem p).orph then w.waitReply r St.ORPHANED
    else if waitHolds w.c.annex r.cmp r.thresh ((w.c.sem p).grantable w.env.cyc) then
      (if r.cons then w.consume p r.thresh else w).waitReply r St.OK
    else match findIdxFrom (fun i => (w.c.rwait i).isNone) 0 16 with
      | some i => w.setRWait i (some r)
      | none => w.waitReply r St.SEM_WTFULL

/-- A delivered TAKE (R279, R280). -/
def Wk.deliverTake (w : Wk) (f : Flit) : Wk :=
  let a := f.word 0
  let b := f.word 1
  let k := fld a 53 52
  let st := w.claimStatus (fld a 59 58) k
  let (w, v) := if st = St.OK then w.takeWc k (fld b 31 0) else (w.semErr k st, 0)
  w.sendHall 3 (BitVec.ofNat 16 (fld b 63 48)) f.h.src 0 0
    [syncWord0 5 0 0 0 false false (fld a 33 30), syncWord1 w.env.die st v]

/-- The instruction a reply's TAG names: at the head of that queue, sent, and of the opcode awaited. -/
def Core.awaiting (c : Core) (q op : Nat) : Option QEntry :=
  match (if q = 0 then c.sync0 else (c.queue q).head?) with
  | some e => if e.started && opc e.word == op && decide (fld e.word 54 53 ≠ 0) then some e else none
  | none => none

/-- The expiry of a remote-wait entry (R275). -/
def Wk.expireRWait (w : Wk) (i : Nat) : Wk :=
  match w.c.rwait i with
  | some r =>
    match r.limit with
    | some t => if t ≤ w.env.cyc then ((w.setRWait i none).bump 0xD20C 1).waitReply r St.SEM_TIMEOUT else w
    | none => w
  | none => w

end Sys2Proof.Machine
end

