-- ==== Sys2Proof/Machine/Streams.lean ====
section
/-! DEFINITION. Stream endpoints, shapers, steering units and fill gates of a core (R211 to R238, R302 to R306). -/

namespace Sys2Proof.Machine

/-! ### Token buckets (R220) -/

/-- RATE and BURST of a shaper register: rates above 1,024 are read as 1,024 (R238). -/
def resRate (r : Word) : Nat := min 1024 (fld r 10 0)

/-- BURST of a shaper register. -/
def resBurst (r : Word) : Nat := fld r 31 24

/-- The tokens a bucket holds in cycle `cyc`. -/
def Shaper.tokens (s : Shaper) (r : Word) (cyc : Nat) : Nat :=
  min (s.tok + resRate r * (cyc - s.at_)) (resBurst r * 1024)

/-- The bucket after spending `n` flits in cycle `cyc`; none while it cannot (R220, R245). -/
def Shaper.spend (s : Shaper) (r : Word) (cyc n : Nat) : Option Shaper :=
  let t := s.tokens r cyc
  if 1024 * n ≤ t then some ⟨t - 1024 * n, cyc⟩ else none

/-- The bucket filled to the BURST of its register (R220, R363). -/
def Shaper.fill (r : Word) (cyc : Nat) : Shaper := ⟨resBurst r * 1024, cyc⟩

/-! ### Endpoints -/

/-- A register of endpoint `e` at +off (R238). -/
def Core.epReg (c : Core) (e off : Nat) : Word := c.reg (0x4000 + 32 * e + off)

/-- An endpoint's running state. -/
def Core.ep (c : Core) (e : Nat) : Endpoint := tget .reset c.eps e

/-- An endpoint's running state changed. -/
def Wk.modEp (w : Wk) (e : Nat) (f : Endpoint → Endpoint) : Wk := w.onCore (fun c => { c with eps := tmod .reset c.eps e f })

/-- MODE of an endpoint: 0 off, 1 source, 2 sink, 3 reserved. -/
def Core.epMode (c : Core) (e : Nat) : Nat := fld (c.epReg e 0) 31 30

/-- The owning context of an endpoint. -/
def Core.epCtx (c : Core) (e : Nat) : Nat := fld (c.epReg e 0) 27 26

/-- Flits in the ring. -/
def Endpoint.ringCount (p : Endpoint) : Nat := p.q.countP (fun f => f.spill.isNone)

/-- Flits in the spill ring. -/
def Endpoint.spillCount (p : Endpoint) : Nat := p.q.countP (fun f => f.spill.isSome)

/-- Flits visible to SRECV, SSTAT, STRQ and steering: those no gate holds (R303). -/
def Endpoint.visible (p : Endpoint) : Nat := (p.q.takeWhile (fun f => !f.held)).length

/-- The flits that were visible at the end of the cycle before `cyc` (R187, R188). -/
def Endpoint.before (p : Endpoint) (cyc : Nat) : Nat :=
  ((p.q.take p.visible).countP (fun f => decide (f.cyc < cyc))) + (if p.took.1 = cyc + 1 then p.took.2 else 0)

/-- The oldest `n` flits of an endpoint taken in a cycle, those that an earlier cycle brought counted (R188, R218). -/
def Endpoint.drop (p : Endpoint) (cyc n : Nat) : Endpoint :=
  { p with q := p.q.drop n
           took := (cyc + 1, (if p.took.1 = cyc + 1 then p.took.2 else 0) + (p.q.take n).countP (fun f => decide (f.cyc < cyc))) }

/-- A status recorded in STRM_ERR with its endpoint or unit (R238). -/
def Wk.strmErr (w : Wk) (ep : Nat) (wait : Bool) (st : Status) : Wk := w.recErr 0x4240 (ep + put (b2n wait) 4) st

/-- The status that refuses a stream instruction on an endpoint (R216, R239): its mode must be one of `modes`, the KIND of an SSEND's
endpoint not the reserved one, its owner the context. -/
def Wk.epBad (w : Wk) (ctx ep : Nat) (modes : List Nat) : Option Status :=
  if !modes.contains (w.c.epMode ep) ∨ (modes = [1] ∧ fld (w.c.epReg ep 0) 29 28 = 3) then some St.STRM_MODE
  else if w.c.epCtx ep ≠ ctx then some St.STRM_OWNER
  else none

/-- The bytes of payload words. -/
def payBytes (ws : List (BitVec 64)) : List Byte := ws.flatMap (fun d => leBytes 8 d.toNat)

/-- The words of line bytes. -/
def bytesPay (bs : List Byte) : List (BitVec 64) := (List.range 8).map (fun i => BitVec.ofNat 64 (leNat ((bs.drop (8 * i)).take 8)))

/-- The 64 offsets of an AM line. -/
def lineOffs (l : Nat) : List Nat := (List.range 64).map (fun i => 64 * l + i)

/-- Must the reading of some held flits wait for the bank of a spill line? (R161, R214) -/
def Wk.spillWait (w : Wk) (fs : List EpFlit) : Bool := fs.any (fun f => match f.spill with
  | some l => w.mustWait 1 [64 * l]
  | none => false)

/-- Which payload words of a held flit are uncorrectable. -/
def Wk.epBadWord (w : Wk) (f : EpFlit) (i : Nat) : Bool :=
  match f.spill with
  | none => (tget WErr.clean f.err (i + 1)).read == EccRead.bad
  | some l => (w.c.bank 1 (w.bankAt 1 (64 * l))).serves && (w.errFor portDma 1 (64 * l + 8 * i)).read == .bad

/-- The payload of a held flit (R214): a spill line is an access of the DMA/stream port, with its errors counted, and a bank that is off
reads as zero (R146, R160, R163, R164). -/
def Wk.epPayload (w : Wk) (ctx : Nat) (f : EpFlit) : Wk × List (BitVec 64) :=
  match f.spill with
  | none => (w, f.pay)
  | some l =>
    let (w, bytes, fl) := w.readMem 1 portDma ctx (lineOffs l)
    (w.noteAcc fl, bytesPay bytes)

/-- SRECV takes one flit: its line written, or dropped under DISC, and its slot freed (R218). -/
def Wk.recvOne (w : Wk) (e : QEntry) (buf : Option Buf) (a : Int) (ep : Nat) (f : EpFlit) : Wk :=
  let w0 := w
  let w := w.modEp ep (fun p => p.drop w.env.cyc 1)
  match buf with
  | none => w
  | some b =>
    let (w, pay) := w.epPayload e.ctx f
    let bytes := payBytes pay
    let at_ : Int := a + (64 * e.done : Nat)
    let (w, fl) := w.writeBuf b portDma ((bytes.zip (span at_ 64)).map (fun x => (x.2, x.1, 0xFF)))
    let w := iter 8 (fun i w =>
      if w0.epBadWord f i ∧ b.has (at_ + (8 * i : Nat)) then w.poisonWord b.mem (b.base + (at_ + (8 * i : Nat)).toNat) else w) w
    w.noteAcc fl

/-- SRECV at the head of the stream queue, taking at most `n` more flits now (R216, R218). -/
def Wk.srecvLoop (q : Nat) (buf : Option Buf) (a : Int) (ep nf : Nat) : Nat → Wk → Eng
  | 0, w => .wait w
  | n + 1, w =>
    match (w.c.queue q).head? with
    | none => .wait w
    | some e =>
      if nf ≤ e.done then .done w
      else match (w.c.ep ep).q with
      | f :: _ =>
        if f.held || w.spillWait [f] then .wait w
        else if (match buf with
            | some b => w.bufWait b (span (a + (64 * e.done : Nat)) 64)
            | none => false) then .wait w
        else
          let w := (w.recvOne e buf a ep f).modHead q (fun e => { e with done := e.done + 1 })
          if nf ≤ e.done + 1 then .done w else Wk.srecvLoop q buf a ep nf n w
      | [] => .wait w

/-- SRECV (R216, R218). -/
def Wk.opSrecv (w : Wk) (e : QEntry) : Eng :=
  let x := e.word
  let ep := fld x 57 54
  let nf := fld x 33 25 + 1
  match w.epBad e.ctx ep [2] with
  | some st => .refuse (w.strmErr ep false st) st
  | none =>
    if bit x 24 then Wk.srecvLoop 5 none 0 ep nf (nf + 1) w
    else
      let a := if e.started then e.addr else w.addr e.ctx (fld x 44 34) 64 (bit x 49) (fld x 48 45)
      let w := w.modHead 5 (fun e => { e with started := true, addr := a })
      match w.handle e.ctx (fld x 53 50) true with
      | .inr st => .refuse w st
      | .inl buf =>
        if a % 64 ≠ 0 then .refuse (w.strmErr ep false St.STRM_ALIGN) St.STRM_ALIGN
        else Wk.srecvLoop 5 (some buf) a ep nf (nf + 1) w

/-- SSTAT (R216, R218). -/
def Wk.opSstat (w : Wk) (e : QEntry) : Eng :=
  let ep := fld e.word 57 54
  match w.epBad e.ctx ep [1, 2] with
  | some st => .refuse (w.strmErr ep false st) st
  | none =>
    let n := if w.c.epMode ep = 2 then (w.c.ep ep).visible else 0
    .done (w.setS e.ctx (fld e.word 53 50) (BitVec.ofNat 32 n))

/-- SSEND at the head of the stream queue: checked and its address formed when it expands; its flits leave by FLIT_ADMIT and
it completes when LEAVES acknowledgements have come for the message (R216, R217, R219). [DEDUCED, log 54] -/
def Wk.opSsend (w : Wk) (e : QEntry) : Eng :=
  let x := e.word
  let ep := fld x 57 54
  if e.started then
    if fld x 33 25 + 1 ≤ e.done ∧ fld (w.c.epReg ep 0) 23 12 ≤ (w.c.ep ep).acks then .done w else .wait w
  else match w.epBad e.ctx ep [1] with
  | some st => .refuse (w.strmErr ep false st) st
  | none =>
    let a := w.addr e.ctx (fld x 44 34) 64 (bit x 49) (fld x 48 45)
    match w.handle e.ctx (fld x 53 50) false with
    | .inr st => .refuse w st
    | .inl _ =>
      if a % 64 ≠ 0 then .refuse (w.strmErr ep false St.STRM_ALIGN) St.STRM_ALIGN
      else .wait (w.modHead 5 (fun e => { e with started := true, addr := a }))

/-- A stream-class instruction at the head of its queue. -/
def Wk.runStream (w : Wk) (e : QEntry) : Eng :=
  match opc e.word with
  | 0x1C => w.opSsend e
  | 0x1D => w.opSrecv e
  | _ => w.opSstat e

/-! ### Delivery (R214, R215, R219, R230, R231) -/

/-- The acknowledgement a sink sends for a TAIL: one Hallway flit to the source endpoint (R219, R329), or to each leaf's
endpoint when a reduction tree formed the flit; its word 0 carries the span it counts for (R365). [DEDUCED, log 50] -/
def Wk.sendAck (w : Wk) (h : Hdr) (leaves : List Nat) : Wk :=
  let stamp : BitVec 64 := (if w.c.spanArr then w.env.span + 1 else w.env.span).setWidth 64
  let to_ := if leaves.isEmpty then [16 * h.src + h.sep] else leaves
  to_.foldl (fun w l => w.pushHall (Flit.mk' ⟨0, 4, true, false, l / 16, l % 16, w.env.code.toNat, h.dep, h.mseq, 0⟩ [stamp])) w

/-- The gate that is enabled on an endpoint (R302). -/
def Core.gateOn (c : Core) (ep : Nat) : Option Nat :=
  findIdxFrom (fun g => bit (c.reg (0x4260 + 16 * g)) 31 && fld (c.reg (0x4260 + 16 * g)) 3 0 == ep) 0 2

/-- A flit discarded at an endpoint, its TAIL still acknowledged (R231). [DESIGN CHOICE, log 45] -/
def Wk.discardFlit (w : Wk) (h : Hdr) (leaves : List Nat) : Wk :=
  let w := w.bump 0x4244 1
  if h.tail then w.sendAck h leaves else w

/-- JOIN_STARVED raised at an endpoint (R230, R231). [DESIGN CHOICE, log 47] -/
def Wk.joinStarved (w : Wk) (ep : Nat) (wait : Bool) : Wk :=
  ((w.strmErr ep wait St.JOIN_STARVED).spanFault St.JOIN_STARVED (w.c.epCtx ep)).modEp ep (fun p => { p with starved := true })

/-- A flit no longer held by a gate, from cycle `cyc` on (R303). -/
def EpFlit.unheld (f : EpFlit) (cyc : Nat) : EpFlit := if f.held then { f with held := false, cyc := cyc } else f

/-- A flit written into a sink endpoint's ring or spill ring, its order checked, its TAIL acknowledged (R214, R215, R219). A TAIL
that arrives with no gate enabled ends the hold of the row that a gate held in part (R303, R305).
[DEDUCED, log 46] [DEDUCED, log 120] -/
def Wk.landFlit (w : Wk) (f : Flit) (ep : Nat) (spill : Option Nat) : Wk :=
  let h := f.h
  let held := (w.c.gateOn ep).isSome
  let e : EpFlit := { tail := h.tail, mseq := BitVec.ofNat 16 h.mseq, pay := if spill.isNone then f.pay else []
                      err := if spill.isNone then f.err else [], cyc := w.env.cyc, ts := w.env.ts, held := held, spill := spill }
  let w := match spill with
    | none => w
    | some l =>
      let (w, fl) := w.writeMem 1 portDma ((payBytes f.pay).mapIdx (fun i b => (64 * l + i, b, 0xFF)))
      iter 8 (fun i w => if (tget WErr.clean f.err (i + 1)).read = EccRead.bad then w.poisonWord 1 (64 * l + 8 * i) else w) (w.noteAcc fl)
  let seqReg := 0x4000 + 32 * ep + 0x18
  let bad := fld (w.reg seqReg) 15 0 ≠ h.mseq ∨ (w.c.ep ep).fidx ≠ h.fidx
  let w := w.modEp ep (fun p => { p with q := p.q ++ [e], fidx := if h.tail then 0 else h.fidx + 1 })
  let w := if h.tail ∧ held = false then w.modEp ep (fun p => { p with q := p.q.map (fun x => x.unheld w.env.cyc) }) else w
  let w := w.setReg seqReg (BitVec.ofNat 32 (if h.tail then (h.mseq + 1) % 65536 else h.mseq))
  let w := w.bump 0x424C 1
  let w := if bad then (w.strmErr ep false St.STRM_SEQ).spanFault St.STRM_SEQ (w.c.epCtx ep) else w
  if h.tail then w.sendAck h f.leaves else w

/-- The spill line a new flit takes, if there is one free (R214, R230). -/
def Wk.spillSlot (w : Wk) (ep : Nat) : Option Nat :=
  let sp := w.c.epReg ep 0x10
  let size := fld sp 27 16
  if bit (w.c.epReg ep 0) 25 ∧ (w.c.ep ep).spillCount < size then some (fld sp 10 0 + (w.c.ep ep).spillNext % size) else none

/-- An arriving stream flit at its sink endpoint (R214, R215, R230, R231). A flit whose spill line lies in a waking bank waits.
[DESIGN CHOICE, log 45] -/
def Wk.deliverFlit (w : Wk) (f : Flit) : Option Wk :=
  let h := f.h
  let ep := h.dep
  let p := w.c.ep ep
  if w.c.epMode ep ≠ 2 then some ((w.strmErr ep false St.STRM_MODE).discardFlit h f.leaves)
  else if p.starved then some (w.discardFlit h f.leaves)
  else if p.spillCount = 0 ∧ p.ringCount < fld (w.c.epReg ep 0xC) 6 0 then some (w.landFlit f ep none)
  else match w.spillSlot ep with
  | some l =>
    if w.mustWait 1 [64 * l] then none
    else some ((w.landFlit f ep (some l)).modEp ep (fun p => { p with spillNext := p.spillNext + 1 }))
  | none => some ((w.joinStarved ep false).discardFlit h f.leaves)

/-- The wait case of the join watchdog (R230, R303): the oldest flit no gate holds has waited JWAIT cycles. -/
def Wk.joinExpiry (w : Wk) (ep : Nat) : Wk :=
  let jw := (w.c.epReg ep 0x1C).toNat
  match (w.c.ep ep).q with
  | f :: _ =>
    if jw ≠ 0 ∧ f.held = false ∧ (w.c.ep ep).starved = false ∧ f.cyc + jw ≤ w.env.cyc then w.joinStarved ep true else w
  | [] => w

/-! ### Admission (R217, R220, R221, R233, R237) -/

/-- The header of the next flit a source endpoint sends (R207, R215, R217). -/
def Core.srcHdr (c : Core) (code : CoreCode) (ep fidx : Nat) (tail : Bool) : Hdr :=
  let d := c.epReg ep 4
  ⟨1, fld (c.epReg ep 0) 29 28, tail, bit (c.epReg ep 0) 24, fld d 15 4, fld d 3 0, code.toNat, ep, fld (c.epReg ep 0x18) 15 0, fidx⟩

/-- A steering unit. -/
def Core.steer (c : Core) (u : Nat) : Steer := tget .reset c.steers u

/-- A steering unit changed. -/
def Wk.modSteer (w : Wk) (u : Nat) (f : Steer → Steer) : Wk := w.onCore (fun c => { c with steers := tmod .reset c.steers u f })

/-- May the endpoint's sender offer a flit: an SSEND's next one, or one of a steered message whose time has come? (R217, R233) -/
def Wk.offers (w : Wk) (ep : Nat) : Sender → Bool
  | .unit u => decide ((w.c.steer u).ep = ep) && !(w.c.steer u).out.isEmpty && decide ((w.c.steer u).ready ≤ w.env.cyc)
  | .ssend =>
    match (w.c.queue 5).head? with
    | some e => opc e.word == 0x1C && e.started && fld e.word 57 54 == ep && decide (e.done ≤ fld e.word 33 25)
    | none => false

/-- Whose flit the endpoint sends next: the sender of the message that has begun, else a steering unit's new message, else an SSEND's
(R215, R233). [DESIGN CHOICE, log 121] -/
def Wk.epWaiting (w : Wk) (ep : Nat) : Option Sender :=
  match (w.c.ep ep).cur with
  | some s => if w.offers ep s then some s else none
  | none => [Sender.unit 0, .unit 1, .ssend].find? (w.offers ep)

/-- Is the endpoint's shaper stopped, because another context is switched in? (R237) -/
def Core.epStopped (c : Core) (ep : Nat) : Bool :=
  match c.active with
  | some k => k != c.epCtx ep
  | none => false

/-- The next source endpoint in round-robin order that has a flit waiting and tokens in hand (R221). -/
def Wk.nextSource (w : Wk) : Option Nat :=
  (findIdxFrom (fun i =>
    let ep := (w.c.epTurn + i) % 16
    (w.epWaiting ep).isSome && w.c.epMode ep == 1 && !w.c.epStopped ep &&
      (((w.c.ep ep).shaper.spend (w.c.epReg ep 8) w.env.cyc 1).isSome)) 0 16).map (fun i => (w.c.epTurn + i) % 16)

/-- A flit that leaves the core into its router's local input (R221). -/
def Wk.inject (w : Wk) (f : Flit) : Wk :=
  (w.onCore (fun c => { c with injAt := some w.env.cyc })).raise (.inject 0 f)

/-- A message's next number after its TAIL (R215). -/
def Wk.stepMseq (w : Wk) (ep : Nat) (tail : Bool) : Wk :=
  if tail then
    w.setReg (0x4000 + 32 * ep + 0x18) (BitVec.ofNat 32 ((fld (w.c.epReg ep 0x18) 15 0 + 1) % 65536))
  else w

/-- A source endpoint's next flit admitted (R217, R220, R221). -/
def Wk.admitSource (w : Wk) (ep : Nat) : Wk :=
  match w.epWaiting ep, (w.c.ep ep).shaper.spend (w.c.epReg ep 8) w.env.cyc 1 with
  | some src, some sh =>
    let take (w : Wk) (f : Flit) (tail : Bool) : Wk :=
      ((((w.modEp ep (fun p => { p with shaper := sh, fidx := if tail then 0 else p.fidx + 1
                                        cur := if tail then none else some src })).stepMseq ep tail).bump 0x4248 1).onCore
        (fun c => { c with epTurn := (ep + 1) % 16 })).inject f
    match src with
    | .unit u =>
      match (w.c.steer u).out with
      | f :: rest =>
        let fl : Flit := ⟨(w.c.srcHdr w.env.code ep (w.c.ep ep).fidx f.tail).pack, f.pay, f.err, [], none, false⟩
        take (w.modSteer u (fun s => { s with out := rest })) fl f.tail
      | [] => w
    | .ssend =>
      match (w.c.queue 5).head? with
      | none => w
      | some e =>
        match w.handle e.ctx (fld e.word 53 50) false with
        | .inr _ => w
        | .inl buf =>
          let offs := span (e.addr + (64 * e.done : Nat)) 64
          if w.bufWait buf offs then w
          else
            let bad (i : Nat) : Bool :=
              let o := e.addr + (64 * e.done + 8 * i : Nat)
              w.bufBad buf o
            let errs : Tbl WErr := (List.range 8).filterMap (fun i => if bad i then some (i + 1, WErr.poison) else none)
            let (w, bytes, fl) := w.readBuf buf portDma e.ctx offs
            let tail := fld e.word 33 25 ≤ e.done
            let f : Flit := ⟨(w.c.srcHdr w.env.code ep e.done tail).pack, bytesPay bytes, errs, [], none, false⟩
            let w := (w.noteAcc fl).modHead 5 (fun e => { e with done := e.done + 1 })
            take (if e.done = 0 then w.modEp ep (fun p => { p with sent := fld (w.c.epReg ep 0x18) 15 0, acks := 0 }) else w) f tail
  | _, _ => w

/-- The oldest Hallway message that waits, when the shaper admits it (R211); `shape` and `b` are the router's register and bucket. -/
def Wk.admitHall (w : Wk) (shape : Word) (b : Shaper) : Option Wk :=
  match w.c.hall with
  | [] => none
  | f :: rest =>
    match b.spend shape w.env.cyc 1 with
    | none => none
    | some sh => some (((w.onCore (fun c => { c with hall := rest, hallOut := c.hallOut + 1 })).raise (.shaped sh)).inject f)

/-- One flit taken to the injection port: Hallway first, then read responses, then source endpoints in turn, and Service
responses in what is left; at most one flit in a cycle (R221, R236, R245). -/
def Wk.admitFlits (w : Wk) (shape : Word) (b : Shaper) : Wk :=
  if w.c.injAt = some w.env.cyc then w
  else match w.admitHall shape b with
  | some w => w
  | none =>
    match w.c.resp with
    | f :: rest => (w.onCore (fun c => { c with resp := rest })).inject f
    | [] =>
      match w.nextSource with
      | some ep => w.admitSource ep
      | none =>
        match w.c.svc with
        | f :: rest => (w.onCore (fun c => { c with svc := rest })).inject f
        | [] => w

/-- A delivery acknowledgement at its source endpoint: it counts for the message whose number it carries; one from another die carries
that die's address in MSEQ and counts for the message in flight (R219, R327). [DEDUCED, log 54] -/
def Wk.receiveAck (w : Wk) (h : Hdr) : Wk :=
  if bit (w.c.epReg h.dep 0) 24 ∨ h.mseq = (w.c.ep h.dep).sent then w.modEp h.dep (fun p => { p with acks := p.acks + 1 }) else w

/-! ### Steering (R232 to R234, R237) -/

/-- The oldest complete visible message of an endpoint, none when its TAIL is not there. -/
def Endpoint.message (p : Endpoint) : Option (List EpFlit) :=
  let v := p.q.take p.visible
  match v.findIdx? (fun f => f.tail) with
  | some i => some (v.take (i + 1))
  | none => none

/-- The latest delivery cycle of some flits. -/
def latest (fs : List EpFlit) : Nat := fs.foldl (fun a f => max a f.cyc) 0

/-- A steering unit forwards or discards its message, or stops on a token that does not fit (R233, R234). -/
def Wk.steerStep (w : Wk) (u : Nat) : Wk :=
  let ctl := w.reg (0x4200 + 8 * u)
  let tep := fld ctl 27 24
  let dep := fld ctl 23 20
  let s := w.c.steer u
  if bit ctl 31 = false ∨ s.stopped ∨ !s.out.isEmpty ∨ w.c.active ≠ some (w.c.epCtx dep) then w
  else match (w.c.ep tep).message, (w.c.ep dep).message with
  | some (t :: _), some (m :: ms) =>
    if w.spillWait (t :: m :: ms) then w
    else
    let (w, token) := w.epPayload (w.c.epCtx tep) t
    let word := token.headD 0
    let sel := fld word 19 16
    let tag : BitVec 16 := BitVec.ofNat 16 (fld word 15 0)
    let okSel := sel = 15 ∨ (sel < 4 ∧ bit ctl (16 + sel))
    if ¬ okSel ∨ tag ≠ m.mseq then
      ((w.strmErr u false St.STEER_TAG).spanFault St.STEER_TAG (w.c.epCtx dep)).modSteer u (fun s => { s with stopped := true })
    else
      let (w, full) := (m :: ms).foldl (fun (a : Wk × List EpFlit) f =>
        let (w, pay) := a.1.epPayload (w.c.epCtx dep) f
        (w, a.2 ++ [{ f with pay := pay, spill := none
                             err := (List.range 8).filterMap (fun i => if w.epBadWord f i then some (i + 1, WErr.poison) else none) }])) (w, [])
      let ready := max (latest (m :: ms)) t.cyc + 4
      let w := (w.modEp tep (fun p => p.drop w.env.cyc 1)).modEp dep (fun p => p.drop w.env.cyc (ms.length + 1))
      w.modSteer u (fun s => { s with ltag := tag, out := if sel = 15 then [] else full
                                      ep := if sel = 15 then s.ep else fld ctl (4 * sel + 3) (4 * sel), ready := ready })
  | _, _ => w

/-- STATE of a steering unit as STRM_STEER_STAT shows it (R238). -/
def Core.steerState (c : Core) (u : Nat) : Nat :=
  let ctl := c.reg (0x4200 + 8 * u)
  if (c.steer u).stopped then 3
  else if bit ctl 31 = false then 0
  else
    let m := (c.ep (fld ctl 23 20)).message.isSome
    let t := (c.ep (fld ctl 27 24)).message.isSome
    if m && !t then 1 else if t && !m then 2 else 0

/-! ### Fill gates (R302 to R305) -/

/-- Complete rows a gate holds: held flits with TAIL. -/
def Endpoint.heldRows (p : Endpoint) : Nat := p.q.countP (fun f => f.held && f.tail)

/-- The first `n` held messages released at cycle `cyc` (R303, R304). -/
def releaseRows (cyc : Nat) : Nat → List EpFlit → List EpFlit
  | 0, fs => fs
  | _, [] => []
  | n + 1, f :: fs =>
    if f.held then
      { f with held := false, cyc := cyc } :: releaseRows cyc (if f.tail then n else n + 1) fs
    else f :: releaseRows cyc (n + 1) fs

/-- The timestamp at which the oldest held row was delivered. -/
def Endpoint.oldestHeld (p : Endpoint) : Option (BitVec 64) := (p.q.find? (fun f => f.held && f.tail)).map (fun f => f.ts)

/-- Rows of gate `g`'s endpoint released, with what STRM_GATE_STAT shows of the release (R304, R305, R310). -/
def Wk.releaseGate (w : Wk) (g ep n : Nat) (dl : Bool) : Wk :=
  let k := min n (w.c.ep ep).heldRows
  (w.modEp ep (fun p => { p with q := releaseRows w.env.cyc k p.q })).onCore
    (fun c => { c with gateRel := tset (0, false) c.gateRel g (k, dl) })

/-- ROWS of a gate. -/
def gateRows (ctl : Word) : Nat := if fld ctl 12 8 = 0 ∨ 16 < fld ctl 12 8 then 16 else fld ctl 12 8

/-- R304's first case. -/
def Wk.gateRowsStep (w : Wk) (g : Nat) : Wk :=
  let ctl := w.reg (0x4260 + 16 * g)
  let ep := fld ctl 3 0
  if bit ctl 31 ∧ gateRows ctl ≤ (w.c.ep ep).heldRows ∧ 0 < (w.c.ep ep).heldRows then
    w.releaseGate g ep (gateRows ctl) false
  else w

/-- R304's second case. -/
def Wk.gateDeadlineStep (w : Wk) (g : Nat) : Wk :=
  let ctl := w.reg (0x4260 + 16 * g)
  let dl := (w.reg (0x4264 + 16 * g)).toNat
  let ep := fld ctl 3 0
  match (w.c.ep ep).oldestHeld with
  | some t =>
    if bit ctl 31 ∧ dl ≠ 0 ∧ (w.c.ep ep).heldRows < gateRows ctl ∧ t.toNat + dl ≤ w.env.ts.toNat then
      ((w.releaseGate g ep (w.c.ep ep).heldRows true).bump (0x426C + 16 * g) 1).timeDep
    else w
  | none => w

end Sys2Proof.Machine
end

