-- ==== Sys2Proof/Machine/Dma.lean ====
section
/-! DEFINITION. The DMA agent: descriptors, their validation, transfers and their messages (R240 to R269, R333). -/

namespace Sys2Proof.Machine

/-! ### Descriptors -/

/-- One side of a descriptor (R247). -/
structure Side where
  fab : Bool
  h : Nat
  sch : Nat
  mxax : Nat
  perm : List Nat
  addr : Nat
  e : List Nat
  o : List Int
  s : List Int
  saddr : Nat
  typ : ElemType
deriving DecidableEq, Repr

/-- A word of a descriptor. -/
def dw (d : List Word) (i : Nat) : Word := nth 0 d i

/-- The 224-bit stride field of a side (R247). -/
def strideField (d : List Word) (b : Nat) : Nat :=
  (List.range 7).foldl (fun a i => a + put (dw d (b + 13 + i)).toNat (32 * i)) 0

/-- A side from the words of a descriptor, the first at word `b` (R247). -/
def sideOf (d : List Word) (b : Nat) (t : ElemType) : Side :=
  let w0 := dw d b
  { fab := bit w0 31, h := fld w0 30 27, sch := fld w0 26 23, mxax := fld w0 22 20
    perm := (List.range 5).map (fun k => fld w0 (3 * k + 2) (3 * k))
    addr := (dw d (b + 1)).toNat + put (dw d (b + 2)).toNat 32
    e := (List.range 5).map (fun j => (dw d (b + 3 + j)).toNat)
    o := (List.range 5).map (fun j => (dw d (b + 8 + j)).toInt)
    s := (List.range 5).map (fun j => sx (nfld (strideField d b) (40 * j + 39) (40 * j)) 40)
    saddr := (dw d (b + 20)).toNat + put (dw d (b + 21)).toNat 32
    typ := t }

/-- MODE of a descriptor: 0 copy, 1 gather, 2 scatter, 3 scatter-add (R246). -/
def dMode (d : List Word) : Nat := fld (dw d 0) 30 28

/-- The channel a descriptor names. -/
def dCh (d : List Word) : Nat := fld (dw d 0) 27 26

/-- An iteration size. -/
def dN (d : List Word) (k : Nat) : Nat := (dw d (4 + k)).toNat

/-- GI of a descriptor. -/
def dGi (d : List Word) : Nat := fld (dw d 0) 21 19

/-- The bytes of the index list (R257). -/
def listBytes (d : List Word) : Nat := 4 * (1 + fld (dw d 0) 22 22) * dN d (dGi d)

/-- The footprint of a side, first and last byte, none when it is empty (R253). -/
def Side.footprint (s : Side) : Option (Int × Int) :=
  if s.e.any (· == 0) then none
  else
    let z := s.typ.bytes
    let term (j : Nat) (neg : Bool) : Int :=
      let st := nth 0 s.s j
      if j = 0 ∧ s.typ.planar then 0
      else if (if neg then decide (st < 0) else decide (0 < st)) then ((nth 0 s.e j : Nat) - 1) * st else 0
    let sum (neg : Bool) : Int := (List.range 5).foldl (fun a j => a + term j neg) 0
    let tail : Int := if s.typ.planar then (ceilDiv (nth 0 s.e 0) 128 * 16 * s.typ.bits : Nat) else (z : Nat)
    some (s.addr + sum true, s.addr + sum false + tail - 1)

/-- The bytes of a side's scale array (R51, R255). -/
def Side.scaleSize (s : Side) : Nat :=
  (List.range 5).foldl (fun a j => a * (if j = s.mxax then ceilDiv (nth 0 s.e j) 32 else nth 0 s.e j)) 1

/-- Does one valid range-table entry of the context allow these fabric bytes, direction and channel? (R244) -/
def Wk.rangeAllows (w : Wk) (ctx ch : Nat) (write : Bool) (lo hi : Int) : Bool :=
  (List.range 8).any (fun r =>
    let b := 0x6400 + 0x100 * ctx + 16 * r
    let ctl := w.reg b
    let base : Int := ((w.reg (b + 4)).toNat + put (w.reg (b + 8)).toNat 32 : Nat)
    let size : Int := (64 * (w.reg (b + 12)).toNat : Nat)
    bit ctl 31 && bit ctl (if write then 29 else 30) && bit ctl ch && decide (base ≤ lo) && decide (hi < base + size))

/-- Is the side's footprint, or its scale array's, inside what is allowed? -/
def Wk.extentOk (w : Wk) (ctx ch : Nat) (write fab : Bool) (h : Nat) (x : Option (Int × Int)) : Bool :=
  match x with
  | none => true
  | some (lo, hi) =>
    if fab then w.rangeAllows ctx ch write lo hi
    else match w.handle ctx h write with
      | .inl b => decide (0 ≤ lo) && decide (hi < b.size)
      | .inr _ => false

/-- The first handle of a list that is refused (R154, R252). -/
def Wk.handlesBad (w : Wk) (ctx : Nat) (hs : List (Nat × Bool)) : Option Status :=
  hs.findSome? (fun x => match w.handle ctx x.1 x.2 with
    | .inr st => some st
    | .inl _ => none)

/-- Reserved fields and modes of a descriptor (R246, R247, R252's first check). [DEDUCED, log 59] -/
def descModeBad (d : List Word) : Bool :=
  let side (b : Nat) : Bool :=
    fld (dw d b) 19 15 != 0 || decide ((dw d (b + 19)).toNat / 256 ≠ 0) || dw d (b + 22) != 0 || dw d (b + 23) != 0 ||
      (!bit (dw d b) 31 && dw d (b + 2) != 0)
  decide (3 < dMode d) || decide (4 < dGi d) || fld (dw d 0) 11 0 != 0 ||
    (List.range 7).any (fun i => dw d (9 + i) != 0) || side 16 || side 40

/-- Is a list a permutation of 0 to 4? -/
def isPerm (p : List Nat) : Bool := (List.range 5).all (fun j => p.contains j)

/-- The first extent of a scale array: its bytes from SADDR. -/
def Side.scaleExtent (s : Side) : Option (Int × Int) :=
  if s.scaleSize = 0 then none else some (s.saddr, s.saddr + s.scaleSize - 1)

/-- Does a fabric address lie in a core window of this die? -/
def Wk.ownCore (w : Wk) (a : Nat) : Bool := decide (a / 2 ^ 48 = w.env.die.toNat) && decide (a % 2 ^ 48 < 2 ^ 32)

/-- Validation of a descriptor's words in R252's order: the status of the first check that fails, or OK.
[DESIGN CHOICE, log 21] -/
def Wk.validate (w : Wk) (ctx : Nat) (d : List Word) : Status :=
  if descModeBad d then St.DMA_MODE
  else match w.cvt (dw d 1) with
  | none => St.BAD_CVT
  | some cv =>
    let s := sideOf d 16 cv.src
    let t := sideOf d 40 cv.dst
    let ch := dCh d
    let mode := dMode d
    let align (x : Side) : Bool := x.typ.planar ||
      (decide (x.addr % x.typ.bytes = 0) && x.s.all (fun y => decide (y % x.typ.bytes = 0)))
    let plane (x : Side) : Bool := !x.typ.planar ||
      (decide (x.addr % 64 = 0) && (x.s.drop 1).all (fun y => decide (y % 64 = 0)) && nth 9 x.perm 0 == 0)
    let hs : List (Nat × Bool) :=
      (if s.fab then [] else [(s.h, false)]) ++ (if !s.fab && cv.srcMx then [(s.sch, false)] else []) ++
      (if t.fab then [] else [(t.h, true)]) ++ (if !t.fab && cv.dstMx then [(t.sch, true)] else []) ++
      (if mode = 0 then [] else [(fld (dw d 0) 15 12, false)])
    let mxOk : Bool :=
      (!cv.srcMx || (decide (s.mxax ≤ 4) && w.extentOk ctx ch false s.fab s.sch s.scaleExtent)) &&
      (!cv.dstMx || (decide (t.mxax ≤ 4) && nth 9 t.perm 0 == t.mxax && decide (nth 0 t.o t.mxax % 32 = 0) &&
        (decide (dN d 0 % 32 = 0) || decide ((nth 0 t.e t.mxax : Nat) ≤ nth 0 t.o t.mxax + (dN d 0 : Nat))) &&
        w.extentOk ctx ch true t.fab t.sch t.scaleExtent))
    let g := if mode = 1 then s else t
    let gi := dGi d
    let gw := bit (dw d 0) 22
    let gd1 := fld (dw d 0) 18 16
    let listOk : Bool := mode == 0 ||
      (decide ((dw d 3).toNat % 4 = 0) &&
        (match w.handle ctx (fld (dw d 0) 15 12) false with
          | .inl b => decide ((dw d 3).toNat + listBytes d ≤ b.size)
          | .inr _ => false) &&
        (!gw || (decide (gd1 ≤ 4) && nth 9 g.perm gi != gd1 &&
          (List.range 5).all (fun k => nth 9 g.perm k != gd1 || dN d k == 1))) &&
        !(g.typ.planar && (nth 9 g.perm gi == 0 || (gw && gd1 == 0))))
    let z : Int := s.typ.bytes
    let modeOk : Bool :=
      (mode != 3 || ((t.typ == .fp32 || t.typ == .int32) && !cv.dstMx && (!t.fab || w.ownCore t.addr))) &&
      (!bit (dw d 0) 23 || (!s.fab && !s.typ.planar && nth 9 s.perm 0 == 1 && nth 9 s.perm 1 == 0 &&
        nth 0 s.s 0 == z && decide (s.addr % 16 = 0) && decide (nth 0 s.s 1 % 16 = 0) && decide (z * nth 0 s.o 0 % 16 = 0)))
    let overlap : Bool :=
      match s.fab, t.fab, w.handle ctx s.h false, w.handle ctx t.h true, s.footprint, t.footprint with
      | false, false, .inl a, .inl b, some (l1, h1), some (l2, h2) =>
        a.mem == b.mem && decide ((b.base : Int) + l2 ≤ a.base + h1) && decide ((a.base : Int) + l1 ≤ b.base + h2)
      | _, _, _, _, _, _ => false
    if !(isPerm s.perm && isPerm t.perm) then St.DMA_PERM
    else if !(align s && align t) then St.DMA_ALIGN
    else if !(plane s && plane t) then St.DMA_PLANE
    else match w.handlesBad ctx hs with
    | some st => st
    | none =>
      if !(w.extentOk ctx ch false s.fab s.h s.footprint && w.extentOk ctx ch true t.fab t.h t.footprint) then St.DMA_RANGE
      else if !mxOk then St.DMA_MX
      else if !listOk then St.DMA_GATHER
      else if !modeOk then St.DMA_MODE
      else if overlap then St.DMA_OVERLAP
      else St.OK

/-- Offset of word `i` of descriptor slot `d` of a context (R269). -/
def descReg (ctx d i : Nat) : Nat := 0x8000 + 0x1000 * ctx + 256 * d + 4 * i

/-- The 64 words of a slot as stored. -/
def Core.desc (c : Core) (ctx d : Nat) : List Word := (List.range 64).map (fun i => c.reg (descReg ctx d i))

/-- A status of the DMA chapter recorded with the channel concerned (R267). -/
def Wk.dmaErr (w : Wk) (ch : Nat) (st : Status) : Wk := w.recErr 0x6050 ch st

/-- DMA_DEF_STAT after a validation (R267). [DEDUCED, log 59] -/
def Wk.defStat (w : Wk) (ctx d : Nat) (st : Status) : Wk :=
  w.setReg 0x6054 (BitVec.ofNat 32 (put (b2n (st == St.OK)) 31 + put ctx 20 + put d 16 + st.toNat))

/-- VALID of a slot set or cleared. -/
def Wk.setDescValid (w : Wk) (ctx d : Nat) (v : Bool) : Wk :=
  let x := w.reg (descReg ctx d 0)
  w.setReg (descReg ctx d 0) (BitVec.ofNat 32 (x.toNat % 2 ^ 31 + put (b2n v) 31))

/-- DDEF: the image read in 4 cycles and validated in 8 more, and taken when it passes; the next waits for the port and the validation logic
(R241, R252, R260). [DESIGN CHOICE, log 26] -/
def Wk.opDdef (w : Wk) (e : QEntry) : Eng :=
  let x := e.word
  let slot := fld x 57 54
  let a := w.addr e.ctx (fld x 44 34) 64 (bit x 49) (fld x 48 45)
  match w.handle e.ctx (fld x 53 50) false with
  | .inr st => .refuse (w.dmaErr 0 st) st
  | .inl b =>
    let offs := span a 256
    if w.bufWait b offs ∨ w.env.cyc < w.c.defFree ∨ w.c.portBusy portDma b.mem then .wait w
    else
      let w := w.onCore (fun c => { c with defFree := w.env.cyc + 12 })
      let (w, bytes, fl) := w.readBuf b portDma e.ctx offs
      let d := (List.range 64).map (fun i => BitVec.ofNat 32 (elemAt bytes 4 i))
      let w := w.noteAcc fl
      let d0 : List Word := (BitVec.ofNat 32 ((dw d 0).toNat % 2 ^ 31)) :: d.drop 1
      let st := w.validate e.ctx d0
      let w := w.defStat e.ctx slot st
      if st = St.OK then
        .done ((iter 64 (fun i w => w.setReg (descReg e.ctx slot i) (dw d0 i)) w).setDescValid e.ctx slot true)
      else .refuse ((w.setDescValid e.ctx slot false).dmaErr (dCh d0) st) st

/-! ### Elements of a transfer -/

/-- Where an element lies: z bytes at an address, or element `i` of the plane group at an address. -/
inductive Loc where
  | bytes (a : Int) (z : Nat)
  | plane (a : Int) (b i : Nat)
deriving DecidableEq, Repr

/-- The bytes a location touches. -/
def Loc.offs : Loc → List Int
  | .bytes a z => Machine.span a z
  | .plane a b i => (List.range b).map (fun j => a + (16 * j + i / 8 : Nat))

/-- An element's bits from a byte reader. -/
def Loc.get (l : Loc) (rd : Int → Byte) : Nat :=
  match l with
  | .bytes a z => leNat ((Machine.span a z).map rd)
  | .plane a b i => bitsOf b (fun j => bit (rd (a + (16 * j + i / 8 : Nat))) (i % 8))

/-- The writes that store an element's bits. -/
def Loc.put (l : Loc) (x : Nat) : List (Int × Byte × Byte) :=
  match l with
  | .bytes a z => elemWrites a z x
  | .plane a b i => (List.range b).map (fun j =>
      (a + (16 * j + i / 8 : Nat), BitVec.ofNat 8 (if nfld x j j = 1 then Machine.put 1 (i % 8) else 0), BitVec.ofNat 8 (Machine.put 1 (i % 8))))

/-- The iteration point of element index n (R248). -/
def pointOf (d : List Word) (n : Nat) : List Nat :=
  ((List.range 5).foldl (fun (a : List Nat × Nat) k =>
    let m := dN d k
    (a.1 ++ [a.2 % (if m = 0 then 1 else m)], a.2 / (if m = 0 then 1 else m))) ([], n)).1

/-- The tensor coordinates of a point on a side: origin, adjustment, and the list entry on the gathered side (R249, R257). -/
def Side.coords (s : Side) (d : List Word) (gathered : Bool) (adjDim : Option Nat) (adj : Int) (entry : Int × Int) (i : List Nat) : List Int :=
  (List.range 5).map (fun j =>
    let k := (s.perm.findIdx? (· == j)).getD 0
    let base : Int := (nth 0 i k : Nat) + nth 0 s.o j + (if adjDim = some j then adj else 0)
    if gathered then
      if nth 9 s.perm (dGi d) = j then entry.1
      else if bit (dw d 0) 22 ∧ fld (dw d 0) 18 16 = j then entry.2
      else base
    else base)

/-- Are the coordinates inside the extents? (R249) -/
def Side.inBounds (s : Side) (t : List Int) : Bool :=
  (List.range 5).all (fun j => decide (0 ≤ nth 0 t j) && decide (nth 0 t j < (nth 0 s.e j : Nat)))

/-- Where the element at in-bounds coordinates lies (R249). -/
def Side.loc (s : Side) (t : List Int) : Loc :=
  if s.typ.planar then
    let line := (List.range 4).foldl (fun a j => a + nth 0 t (j + 1) * nth 0 s.s (j + 1)) (s.addr : Int)
    let n := (nth 0 t 0).toNat
    .plane (line + (n / 128 * 16 * s.typ.bits : Nat)) s.typ.bits (n % 128)
  else .bytes ((List.range 5).foldl (fun a j => a + nth 0 t j * nth 0 s.s j) (s.addr : Int)) s.typ.bytes

/-- The place of a scale byte: the scale array is row-major with dimension 0 innermost (R51, R255). -/
def Side.scaleAt (s : Side) (t : List Int) : Int :=
  let ext (j : Nat) : Nat := if j = s.mxax then ceilDiv (nth 0 s.e j) 32 else nth 0 s.e j
  let idx (j : Nat) : Int := if j = s.mxax then nth 0 t j / 32 else nth 0 t j
  (List.range 5).foldr (fun j a => a * (ext j : Nat) + idx j) 0 + s.saddr

/-- The destination positions past the end of dimension 0 that a bit-plane destination writes 0 (R49, R256). -/
def Side.padding (s : Side) (t : List Int) : List Loc :=
  if s.typ.planar ∧ nth 0 t 0 = (nth 0 s.e 0 : Nat) - 1 ∧ nth 0 s.e 0 % 128 ≠ 0 then
    match s.loc t with
    | .plane a b i => (List.range (127 - i)).map (fun k => .plane a b (i + 1 + k))
    | _ => []
  else []

/-- The total of iteration points (R248). -/
def dTotal (d : List Word) : Nat := dN d 0 * dN d 1 * dN d 2 * dN d 3 * dN d 4

/-- A point of a running transfer with its source and destination places. -/
structure Point where
  n : Nat
  src : Option (Loc × Int)
  dst : Option (Loc × Int)
  pad : List Loc
  first : Bool
deriving DecidableEq, Repr

/-- The points of a transfer in iteration order, from the list entries its gathered side uses (R248 to R251, R257). -/
def Run.points (r : Run) (entry : Nat → Int × Int) : List Point :=
  let s := sideOf r.desc 16 r.cvt.src
  let t := sideOf r.desc 40 r.cvt.dst
  let mode := dMode r.desc
  (List.range (dTotal r.desc)).map (fun n =>
    let i := pointOf r.desc n
    let en := if mode = 0 then (0, 0) else entry (nth 0 i (dGi r.desc))
    let sc := s.coords r.desc (mode == 1) (if r.sad < 5 then some r.sad else none) r.sa en i
    let dc := t.coords r.desc (mode == 2 || mode == 3) (if r.dad < 5 then some r.dad else none) r.da en i
    { n := n
      src := if s.inBounds sc then some (s.loc sc, if r.cvt.srcMx then s.scaleAt sc else 0) else none
      dst := if t.inBounds dc then some (t.loc dc, if r.cvt.dstMx then t.scaleAt dc else 0) else none
      pad := if t.inBounds dc then t.padding dc else []
      first := nth 0 i 0 % 32 == 0 })

/-- The fill value, as R56 would deliver it (R250). -/
def fillVal (d : List Word) : Val :=
  if bit (dw d 0) 24 then valOfInt (dw d 2).toInt else f32 (dw d 2)

/-- One written element: its place, bits, and whether its data is uncorrectable. -/
structure Out where
  loc : Loc
  bits : Nat
  bad : Bool
deriving DecidableEq, Repr

/-- The lines a location touches. -/
def Loc.lines (l : Loc) : List Nat := ((l.offs.map (fun a => a.toNat / 64)).eraseDups)

/-- The lines of successive points cut into runs, a maximal sequence of points whose bytes lie in the lines of its first (R262): every line
access in order, and for each point the place of its run's first access and the run's lines; a point with none ends a run. -/
def cutRuns (ls : List (List Nat)) : List Nat × List (Nat × List Nat) :=
  let r := ls.foldl (fun (a : List Nat × List Nat × List (Nat × List Nat)) l =>
    if l.isEmpty then (a.1, [], a.2.2 ++ [(a.1.length, [])])
    else if a.2.1 ≠ [] ∧ l.all a.2.1.contains then (a.1, a.2.1, a.2.2 ++ [(a.1.length - a.2.1.length, a.2.1)])
    else (a.1 ++ l, l, a.2.2 ++ [(a.1.length, l)])) ([], [], [])
  (r.1, r.2.2)

/-- Elements gathered into their runs: those of one run stand together. -/
def byRun {α : Type} : List ((Nat × List Nat) × α) → List (Nat × List α)
  | [] => []
  | (k, x) :: xs =>
    match byRun xs with
    | [] => [(k.1, [x])]
    | (j, ys) :: rs => if j = k.1 ∧ k.2 ≠ [] then (j, x :: ys) :: rs else (k.1, [x]) :: (j, ys) :: rs

/-- The accesses of a transfer's source side: its elements' lines, then its scale bytes' lines, each with the runs of the points. -/
def Run.srcRuns (r : Run) (ps : List Point) : (List Nat × List (Nat × List Nat)) × (List Nat × List (Nat × List Nat)) :=
  (cutRuns (ps.map (fun p => match p.src with
    | some (l, _) => l.lines
    | none => [])),
   cutRuns (ps.map (fun p => match p.src with
    | some (_, sa) => if r.cvt.srcMx then [sa.toNat / 64] else []
    | none => [])))

/-- The bytes and the uncorrectable words of a source, as its elements see them: of a point's element run and of its scale run, each the place of
the run's first access and its lines. -/
structure SrcRead where
  byte : Nat × List Nat → Int → Byte
  bad : Nat × List Nat → Int → Bool

/-- A source that has come back from the fabric, its runs' accesses counted from `off`. -/
def Run.fromFabric (r : Run) (off : Nat) : SrcRead :=
  let at_ (k : Nat × List Nat) (a : Int) : Nat := off + k.1 + (k.2.findIdx? (· == a.toNat / 64)).getD 0
  ⟨fun k a => nth 0 (tget [] r.got (at_ k a)) (a.toNat % 64), fun k a => tget false r.bad (8 * at_ k a + a.toNat % 64 / 8)⟩

/-- A source in a buffer of this core. -/
def Wk.fromBuf (w : Wk) (b : Option Buf) : SrcRead :=
  match b with
  | some b => ⟨fun _ a => w.bufByte b a, fun _ a => w.bufBad b a⟩
  | none => ⟨fun _ _ => 0, fun _ _ => false⟩

/-- One point of a transfer with its source element: the value it decodes to, whether it is uncorrectable, its bits and its scale byte. -/
structure Formed where
  p : Point
  val : Val
  bad : Bool
  bits : Nat
  scale : Nat
deriving DecidableEq, Repr

/-- The values of a transfer's points, out-of-bounds sources filled (R250, R255, R56), with their error flags: an uncorrectable element or
scale byte (R164, R266). -/
def Run.values (r : Run) (el sc : SrcRead) (ps : List (Point × (Nat × List Nat) × (Nat × List Nat))) : List Formed :=
  ps.map (fun x =>
    match x.1.src with
    | none => ⟨x.1, fillVal r.desc, false, 0, 0x7F⟩
    | some (l, sa) =>
      let v := l.get (el.byte x.2.1)
      let s := if r.cvt.srcMx then (sc.byte x.2.2 sa).toNat else 0x7F
      ⟨x.1, r.cvt.decode s v, l.offs.any (el.bad x.2.1) || (r.cvt.srcMx && sc.bad x.2.2 sa), v, s⟩)

/-- Points cut into the runs of up to 32 along iteration dimension 0 that R255 encodes as blocks. -/
def cutBlocks : List Formed → List (List Formed)
  | [] => []
  | x :: xs =>
    match cutBlocks xs with
    | [] => [[x]]
    | (y :: ys) :: bs => if y.p.first then [x] :: (y :: ys) :: bs else (x :: y :: ys) :: bs
    | [] :: bs => [x] :: bs

/-- Does a conversion keep the blocks it is given: between two MX sides, unscaled, of one element type (R54) or from an FP6 type to E4M3
(R40)? [DEDUCED, log 17] -/
def Cvt.keepsBlocks (c : Cvt) : Bool :=
  c.srcMx && c.dstMx && c.ptsExp == 0 && (c.src == c.dst || ((c.src == .e3m2 || c.src == .e2m3) && c.dst == .e4m3))

/-- One destination block: its elements, scale byte and events. A conversion that keeps blocks keeps the scale byte, and each element's
value, where all of the block's points have read one scale byte (R40, R54); else the block is formed by R62.
[DEDUCED, log 17] -/
def Run.block (r : Run) (u : Nat → Nat) (live : List Formed) : List Nat × Nat × NumEv :=
  match live with
  | x :: _ =>
    if r.cvt.keepsBlocks && live.all (fun y => y.p.src.isSome && y.scale == x.scale) then
      (live.map (fun y => if r.cvt.src = r.cvt.dst then canonBits r.cvt.dst y.bits else (encodeElem r.cvt.dst .rne true (decodeElem r.cvt.src y.bits)).1),
        x.scale, {})
    else encodeBlock r.cvt (live.map (fun y => (y.val, u y.p.n)))
  | [] => ([], 0, {})

/-- The elements a transfer writes, in iteration order, with the scale bytes and the conversion events (R249 to R251, R255, R256).
[DEDUCED, log 17] -/
def Run.outputs (r : Run) (vs : List Formed) : List Out × List (Int × Nat) × NumEv :=
  let u (n : Nat) : Nat := if r.cvt.rnd = 2 then srU r.seed r.tweak r.span n else 0
  let pads (x : Formed) : List Out := x.p.pad.map (fun l => ⟨l, 0, x.bad⟩)
  if r.cvt.dstMx then
    (cutBlocks vs).foldl (fun (a : List Out × List (Int × Nat) × NumEv) blk =>
      let live := blk.filter (fun x => x.p.dst.isSome)
      if live.isEmpty then a
      else
        let (els, sc, ev) := r.block u live
        let outs := (live.zip els).flatMap (fun (x : Formed × Nat) =>
          match x.1.p.dst with
          | some (l, _) => ⟨l, x.2, x.1.bad⟩ :: pads x.1
          | none => [])
        let sa := match (live.head?.bind (fun x => x.p.dst)) with
          | some (_, s) => s
          | none => 0
        (a.1 ++ outs, a.2.1 ++ [(sa, sc)], a.2.2.add ev)) ([], [], {})
  else
    vs.foldl (fun (a : List Out × List (Int × Nat) × NumEv) x =>
      match x.p.dst with
      | none => a
      | some (l, _) =>
        let (y, ev) : Nat × NumEv :=
          if r.cvt.identity && x.p.src.isSome then (canonBits r.cvt.dst x.bits, {})
          else encodeElem r.cvt.dst (r.cvt.mode (u x.p.n)) r.cvt.nonsat x.val
        (a.1 ++ (⟨l, y, x.bad⟩ :: pads x), a.2.1, a.2.2.add ev)) ([], [], {})

/-! ### Messages (R245, R256, R258, R500, R501) -/

/-- One line to write at a fabric address: its bytes and the mask of each. -/
structure LineW where
  line : Nat
  data : List Byte
  mask : List Byte
  bad : Bool
deriving DecidableEq, Repr

/-- One masked byte placed into a line list: merged into the line's entry, or a new one (R258). -/
def putLine (fresh : Bool) (ls : List LineW) (a : Int) (v m : Byte) (bad : Bool) : List LineW :=
  let line := a.toNat / 64
  let i := a.toNat % 64
  let merge (x : LineW) : LineW :=
    { x with data := x.data.modify i (fun o => (o &&& ~~~m) ||| (v &&& m)), mask := x.mask.modify i (· ||| m), bad := x.bad || bad }
  let new : LineW := merge ⟨line, List.replicate 64 0, List.replicate 64 0, false⟩
  if fresh then
    match ls.getLast? with
    | some x => if x.line = line ∧ nth 0 x.mask i = 0 then ls.dropLast ++ [merge x] else ls ++ [new]
    | none => [new]
  else if ls.any (fun x => x.line == line) then ls.map (fun x => if x.line = line then merge x else x)
  else ls ++ [new]

/-- Does a line need bit enables? (R256) -/
def LineW.bits (x : LineW) : Bool := x.mask.any (fun m => m != 0 && m != 0xFF)

/-- Is every byte of the line written? -/
def LineW.whole (x : LineW) : Bool := x.mask.all (· == 0xFF)

/-- The line a DMA access of this die goes to: with ACTIVE = 1, offset x of one half of a double-buffered Attic region is sent to
offset x of the other (R345, R346). -/
def atticLine (reg : Nat → Word) (die : DieAddr) (line : Nat) : Nat :=
  if bit (reg 0xC0000) 30 then
    ((List.range 16).findSome? (fun r =>
      let ctl := reg (0xC0100 + 16 * r)
      let base := (die.toNat * 2 ^ 48 + 0x100000000000 + fld ctl 4 0 * 2 ^ 37) / 64
      let a := base + (reg (0xC0104 + 16 * r)).toNat
      let b := base + (reg (0xC0108 + 16 * r)).toNat
      let n := (reg (0xC010C + 16 * r)).toNat
      if bit ctl 31 = false ∨ bit ctl 30 then none
      else if a ≤ line ∧ line < a + n then some (line - a + b)
      else if b ≤ line ∧ line < b + n then some (line - b + a)
      else none)).getD line
  else line

/-- May two lines travel in one message: consecutive where the plan and where the Attic puts them, and by one way (R245, R264, R330)? -/
def joins (att : Nat → Nat) (go : Nat → Option (Bool × Nat)) (x y : Nat) : Bool :=
  decide (y = x + 1) && decide (att y = att x + 1) && go (att y) == go (att x)

/-- Lines cut into messages of consecutive lines of one form, at most 8, partial lines only in positions 0 to 5 (R245, R501). -/
def cutLines (att : Nat → Nat) (go : Nat → Option (Bool × Nat)) (merge : Bool) : List LineW → List (List LineW)
  | [] => []
  | x :: xs =>
    match cutLines att go merge xs with
    | (y :: ys) :: ms =>
      if merge && joins att go x.line y.line && y.bits == x.bits && decide (ys.length + 2 ≤ 8) &&
          ((y :: ys).drop 5).all (fun l => l.whole || x.bits) then (x :: y :: ys) :: ms
      else [x] :: (y :: ys) :: ms
    | ms => [x] :: ms

/-- Payload word 0 of a request (R500). -/
def svcWord0 (sop nl : Nat) (rdie : DieAddr) (st : Status) : BitVec 64 :=
  BitVec.ofNat 64 (put sop 56 + put nl 52 + put rdie.toNat 32 + st.toNat)

/-- The byte enables of a line. -/
def LineW.enables (x : LineW) : Nat := bitsOf 64 (fun i => nth 0 x.mask i != 0)

/-- The error states of a line's words: those that a write enables, when the data is uncorrectable (R235, R266). -/
def LineW.errs (x : LineW) : Tbl WErr :=
  if x.bad then ((List.range 8).filter (fun i => (x.mask.drop (8 * i)).take 8 != List.replicate 8 0)).map (fun i => (i + 1, WErr.poison)) else []

/-- A line with uncorrectable data that goes to a memory of this die is written whole with the pattern of R165 (R266). -/
def LineW.spoil (x : LineW) (here : Bool) : LineW := if x.bad && here then { x with mask := List.replicate 64 0xFF } else x

/-- A write message for some lines: its address flit and its data and enable flits (R266, R500, R501). [DESIGN CHOICE, log 55] -/
def writeMsg (att : Nat → Nat) (rdie : DieAddr) (ls : List LineW) (tag : Nat) : DmaMsg :=
  let bits := (ls.headD ⟨0, [], [], false⟩).bits
  let line := (ls.headD ⟨0, [], [], false⟩).line
  let a := 64 * att line
  let w0 := svcWord0 (if bits then 0x14 else 0x13) (ls.length - 1) rdie St.OK
  let en := if bits then List.replicate 6 0 else (List.range 6).map (fun i => match ls[i]? with
    | some x => BitVec.ofNat 64 x.enables
    | none => 0)
  { read := false, lines := ls.length, first := 0, addr := BitVec.ofNat 64 (64 * line), dest := BitVec.ofNat 64 a, tag := tag, sent := 0
    flits := (w0 :: BitVec.ofNat 64 a :: en, []) ::
      ls.flatMap (fun x => if bits then [(bytesPay x.data, x.errs), (bytesPay x.mask, [])] else [(bytesPay x.data, x.errs)]) }

/-- A read request for consecutive lines (R245, R501). [DESIGN CHOICE, log 55] -/
def readMsg (att : Nat → Nat) (rdie : DieAddr) (line n tag first : Nat) : DmaMsg :=
  { read := true, lines := n, first := first, addr := BitVec.ofNat 64 (64 * line), dest := BitVec.ofNat 64 (64 * att line), tag := tag, sent := 0
    flits := [([svcWord0 0x12 (n - 1) rdie St.OK, BitVec.ofNat 64 (64 * att line), 0, 0, 0, 0, 0, 0], [])] }

/-- How many lines at the front of a list one request can take, at most `cap` (R245). -/
def runLength (att : Nat → Nat) (go : Nat → Option (Bool × Nat)) : Nat → List Nat → Nat
  | 0, _ => 0
  | _, [] => 0
  | _, [_] => 1
  | cap + 1, x :: y :: rest => if joins att go x y ∧ cap ≠ 0 then 1 + runLength att go cap (y :: rest) else 1

/-- The read request a transfer sends next under a BURST: at most min(8, BURST) consecutive lines (R245). -/
def Run.nextRead (r : Run) (att : Nat → Nat) (go : Nat → Option (Bool × Nat)) (burst : Nat) (rdie : DieAddr) : Option DmaMsg :=
  match r.toRead with
  | [] => none
  | x :: _ => some (readMsg att rdie x (runLength att go (max 1 (min 8 burst)) r.toRead) r.nextTag r.asked)

/-- A channel. -/
def Core.chan (c : Core) (ch : Nat) : Channel := tget .reset c.chans ch

/-- A channel changed. -/
def Wk.modChan (w : Wk) (ch : Nat) (f : Channel → Channel) : Wk := w.onCore (fun c => { c with chans := tmod .reset c.chans ch f })

/-- The running transfer of a channel changed. -/
def Wk.modRun (w : Wk) (ch : Nat) (f : Run → Run) : Wk := w.modChan ch (fun k => { k with run := k.run.map f })

/-- A channel's shaper register (R267). -/
def Wk.chRes (w : Wk) (ch : Nat) : Word := w.reg (0x6010 + 8 * ch)

/-- A scatter-add of one element at a local destination (R259). -/
def addElem (t : ElemType) (old v : Word) : Word × NumEv :=
  if t = .int32 then (old + v, {}) else fp32Add old (f32 v)

/-- The writes of one run merged byte by byte, the later one over the earlier (R258). -/
def mergeWrites (ws : List (Int × Byte × Byte)) : List (Int × Byte × Byte) :=
  ws.foldl (fun (a : List (Int × Byte × Byte)) x =>
    if a.any (fun y => y.1 == x.1) then
      a.map (fun y => if y.1 = x.1 then (y.1, (y.2.1 &&& ~~~x.2.2) ||| (x.2.1 &&& x.2.2), y.2.2 ||| x.2.2) else y)
    else a ++ [x]) []

/-- The bytes that a run of scatter-add elements leaves, each element read, added and kept for the next one (R259), with the events. -/
def addRun (t : ElemType) (rd : Int → Byte) (outs : List Out) : List (Int × Byte × Byte) × NumEv :=
  outs.foldl (fun (a : List (Int × Byte × Byte) × NumEv) o =>
    let cur (i : Int) : Byte := (a.1.find? (fun y => y.1 == i)).elim (rd i) (fun y => y.2.1)
    let (r, ev) := addElem t (BitVec.ofNat 32 (o.loc.get cur)) (BitVec.ofNat 32 o.bits)
    (mergeWrites (a.1 ++ o.loc.put r.toNat), a.2.add ev)) ([], {})

/-- Every word of a line stored with the pattern that always decodes as uncorrectable (R165, R266). -/
def Wk.poisonLine (w : Wk) (m o : Nat) : Wk := iter 8 (fun i w => w.poisonWord m (64 * (o / 64) + 8 * i)) w

/-- One run of destination elements in a buffer of this core: one write, or for a scatter-add one read and one write; the line of an
element with uncorrectable data is left uncorrectable, and so is a word whose old value was (R258, R259, R262, R266). -/
def Wk.writeRun (w : Wk) (b : Buf) (add : Option ElemType) (ctx : Nat) (outs : List Out) : Wk × AccFlags :=
  let (w, ws, fl, spoilt) : Wk × List (Int × Byte × Byte) × AccFlags × List Nat := match add with
    | none => (w, mergeWrites (outs.flatMap (fun o => o.loc.put o.bits)), {}, [])
    | some t =>
      let offs := (outs.flatMap (fun o => o.loc.offs)).eraseDups
      let (ws, ev) := addRun t (w.bufByte b) outs
      let bad := ((offs.filter (w.bufBad b)).map (fun o => 8 * ((b.base + o.toNat) / 8))).eraseDups
      let r := w.readRaw b.mem portDma ctx (b.offs offs)
      (r.1.countNum ev, ws, r.2.2, bad)
  let (w, f) := w.writeRaw b.mem portDma (b.inside ws)
  let w := spoilt.foldl (fun w o => w.poisonWord b.mem o) w
  let w := ((outs.filter (·.bad)).flatMap (fun o => o.loc.offs.filter b.has)).foldl (fun w o => w.poisonLine b.mem (b.base + o.toNat)) w
  (w, fl.or f)

/-- Local destination elements written run by run, with the accesses of channel `ch` (R258, R259, R262, R266). -/
def Wk.writeLocal (w : Wk) (b : Buf) (add : Option ElemType) (ctx ch : Nat) (outs : List Out) : Wk × Bool :=
  let runs := byRun ((cutRuns (outs.map (fun o => o.loc.lines))).2.zip outs)
  runs.foldl (fun (a : Wk × Bool) run =>
    let lines := linesIn (b.offs (run.2.flatMap (fun o => o.loc.offs)))
    let w := if add.isSome then a.1.askPort portDma b.mem false a.1.env.cyc (ch + 1) lines else a.1
    let (w, fl) := w.writeRun b add ctx run.2
    ((w.askPort portDma b.mem true w.env.cyc (ch + 1) lines).noteAcc fl, a.2 || fl.ue)) (w, false)

/-- The reads of a local source, run by run, with the accesses of channel `ch` (R163, R164, R262). -/
def Wk.readRuns (w : Wk) (b : Buf) (ctx ch : Nat) (runs : List (Nat × List (List Int))) : Wk × Bool :=
  runs.foldl (fun (a : Wk × Bool) run =>
    let offs := b.offs (run.2.flatMap id)
    if offs.isEmpty then a
    else
      let (w, _, fl) := a.1.readRaw b.mem portDma ctx offs
      ((w.askPort portDma b.mem false w.env.cyc (ch + 1) (linesIn offs)).noteAcc fl, a.2 || fl.ue)) (w, false)

/-- The buffer of a local side. -/
def Wk.sideBuf (w : Wk) (ctx : Nat) (fab : Bool) (h : Nat) (write : Bool) : Option Buf :=
  if fab then none
  else match w.handle ctx h write with
    | .inl b => some b
    | .inr _ => none

/-- The points of a transfer, from the list entries it has read. -/
def Run.pts (r : Run) : List Point := r.points (fun m => nth (0, 0) r.list m)

/-- Do the elements of a transfer, or its scale bytes, lie in a bank that is to wake (R161)? -/
def Wk.formWaits (w : Wk) (r : Run) : Bool :=
  let s := sideOf r.desc 16 r.cvt.src
  let t := sideOf r.desc 40 r.cvt.dst
  let waits (b : Option Buf) (offs : List Int) : Bool := match b with
    | some b => w.bufWait b offs
    | none => false
  let at_ (f : Point → Option (Loc × Int)) : List Int := r.pts.flatMap (fun p => match f p with
    | some (l, _) => l.offs
    | none => [])
  let sc (f : Point → Option (Loc × Int)) : List Int := r.pts.filterMap (fun p => (f p).map (·.2))
  waits (w.sideBuf r.ctx s.fab s.h false) (at_ (·.src)) || waits (w.sideBuf r.ctx t.fab t.h true) (at_ (·.dst)) ||
    (r.cvt.srcMx && waits (w.sideBuf r.ctx s.fab s.sch false) (sc (·.src))) ||
    (r.cvt.dstMx && waits (w.sideBuf r.ctx t.fab t.sch true) (sc (·.dst)))

/-- Has every source line of a transfer come, and its elements not been formed yet? -/
def Run.due (r : Run) : Bool := !r.formed && r.toRead.isEmpty && r.reading.isEmpty

/-- A transfer that has formed its elements, with the write messages it has to inject. -/
def Wk.formedRun (w : Wk) (ch : Nat) (msgs : List DmaMsg) : Wk :=
  w.modRun ch (fun r => { r with formed := true, toWrite := msgs, nextTag := r.nextTag + msgs.length })

/-- The way of a line of the fabric, towards a core of this die, a module of this die's stack window, or a module towards another die; none
when there is none (R243, R326, R327, R330). -/
def Wk.fabricDest (w : Wk) (a : BitVec 64) : Option (Bool × Nat) :=
  let die : DieAddr := BitVec.ofNat 16 (fld a 63 48)
  let loc := fld a 47 0
  if die = w.env.die then
    if loc < 2 ^ 32 then some (false, loc / 2 ^ 20)
    else
      let o := loc - 0x100000000000
      let win := w.env.porch (0x82400 + 4 * (o / 2 ^ 37))
      if bit win 31 then
        let ms := groupModules w.env.porch (fld win 3 0)
        (if ms.isEmpty then none else ms[(o % 2 ^ 37 / 64) % ms.length]?).map (fun m => (true, m))
      else none
  else (routeModule w.env.porch die (flowKey w.env.die w.env.code.toNat)).map (fun m => (true, m.1))

/-- The way of a line, by its number. -/
def Wk.lineWay (w : Wk) (line : Nat) : Option (Bool × Nat) := w.fabricDest (BitVec.ofNat 64 (64 * line))

/-- Is a line one of a memory of this die? -/
def Wk.lineHere (w : Wk) (line : Nat) : Bool := w.ownCore (64 * line)

/-- The write messages for some elements and scale bytes at fabric addresses (R245, R256, R258, R266). -/
def Wk.outMsgs (w : Wk) (r : Run) (add : Bool) (outs souts : List Out) : List DmaMsg :=
  let place (fresh : Bool) (ls : List LineW) (o : Out) : List LineW :=
    (o.loc.put o.bits).foldl (fun ls x => putLine fresh ls x.1 x.2.1 x.2.2 o.bad) ls
  let lines (fresh : Bool) (os : List Out) : List LineW :=
    (os.foldl (place fresh) []).map (fun x => if add then x else x.spoil (w.lineHere x.line))
  let att := atticLine w.env.porch w.env.die
  let msgs := cutLines att w.lineWay (!add) (lines add outs) ++ cutLines att w.lineWay true (lines false souts)
  msgs.mapIdx (fun i m => writeMsg att w.env.die m (r.nextTag + i))

/-- The elements of a transfer formed: read, converted, counted, and written locally or made into write messages (R249 to R259, R266).
[DEDUCED, log 56] -/
def Wk.form (w : Wk) (ch : Nat) (r : Run) : Wk :=
  let s := sideOf r.desc 16 r.cvt.src
  let t := sideOf r.desc 40 r.cvt.dst
  let ps := r.pts
  let runs := r.srcRuns ps
  let sb := w.sideBuf r.ctx s.fab s.h false
  let ssb := w.sideBuf r.ctx s.fab s.sch false
  let el := if s.fab then r.fromFabric 0 else w.fromBuf sb
  let sc := if s.fab then r.fromFabric runs.1.1.length else w.fromBuf ssb
  let vs := r.values el sc (ps.zip (runs.1.2.zip runs.2.2))
  let offs := ps.map (fun p => match p.src with
    | some (l, _) => l.offs
    | none => [])
  let soffs := ps.map (fun p => match p.src with
    | some (_, sa) => if r.cvt.srcMx then [sa] else []
    | none => [])
  let read (w : Wk) (b : Option Buf) (k : List (Nat × List Nat)) (os : List (List Int)) : Wk × Bool := match b with
    | some b => w.readRuns b r.ctx ch (byRun (k.zip os))
    | none => (w, false)
  let (w, ue1) := read w sb runs.1.2 offs
  let (w, ue2) := read w ssb runs.2.2 soffs
  let (outs, scs, ev) := r.outputs vs
  let w := (w.countNum ev).bump 0x6040 (ps.countP (fun p => p.src.isNone))
  let oob := ps.countP (fun p => p.dst.isNone)
  let w := if oob = 0 then w
    else if bit (dw r.desc 0) 25 then w.bump 0x6048 oob
    else (w.bump 0x6044 oob).dmaErr ch St.DMA_OOB
  let add : Option ElemType := if dMode r.desc = 3 then some r.cvt.dst else none
  let souts : List Out := scs.map (fun x => ⟨.bytes x.1 1, x.2, false⟩)
  let (w, ue3) := match w.sideBuf r.ctx t.fab t.h true with
    | some b => w.writeLocal b add r.ctx ch outs
    | none => (w, false)
  let (w, ue4) := match w.sideBuf r.ctx t.fab t.sch true with
    | some b => w.writeLocal b none r.ctx ch souts
    | none => (w, false)
  let w := if ue1 || ue2 || ue3 || ue4 then (w.dmaErr ch St.MEM_UE).spanFault St.MEM_UE r.ctx else w
  w.formedRun ch (if t.fab then w.outMsgs r add.isSome outs souts else [])

/-- A transfer whose source has come forms its elements, unless a bank that is to wake holds it back (R161). [DEDUCED, log 56] -/
def Wk.formRun (w : Wk) (ch : Nat) : Wk :=
  match (w.c.chan ch).run with
  | none => w
  | some r => if r.due = false ∨ w.formWaits r then w else w.form ch r

/-- The entries of the index list of a transfer, from the list's bytes (R257). -/
def listOf (d : List Word) (bytes : List Byte) : List (Int × Int) :=
  let two := fld (dw d 0) 22 22
  (List.range (dN d (dGi d))).map (fun m =>
    (sx (elemAt bytes 4 ((1 + two) * m)) 32, if two = 1 then sx (elemAt bytes 4 (2 * m + 1)) 32 else 0))

/-- The index list read by the DMA/stream port: its entries, and whether a word of it was uncorrectable; none while a bank of it is to wake
(R161, R163, R164, R257). -/
def Wk.readList (w : Wk) (ctx ch : Nat) (d : List Word) (loff : Int) : Option (Wk × List (Int × Int)) :=
  if dMode d = 0 then some (w, [])
  else match w.handle ctx (fld (dw d 0) 15 12) false with
  | .inr _ => some (w, [])
  | .inl b =>
    let offs := Machine.span loff (listBytes d)
    if w.bufWait b offs then none
    else
      let bytes := w.bufBytes b portDma offs
      let (w, _, fl) := w.readRaw b.mem portDma ctx (b.offs offs)
      let w := (w.askPort portDma b.mem false w.env.cyc (ch + 1) (linesIn (b.offs offs))).noteAcc fl
      some (if fl.ue then (w.dmaErr ch St.MEM_UE).spanFault St.MEM_UE ctx else w, listOf d bytes)

/-- DGO at the head of the DMA queue: accepted when its channel is idle (R240, R241, R254, R255, R260, R261). [DEDUCED, log 56] -/
def Wk.opDgo (w : Wk) (e : QEntry) : Eng :=
  let x := e.word
  let slot := fld x 57 54
  let d := w.c.desc e.ctx slot
  let ch := dCh d
  let no (st : Status) : Eng := .refuse (w.dmaErr ch st) st
  if bit (dw d 0) 31 = false then no St.DMA_INVALID
  else match w.cvt (dw d 1) with
  | none => no St.BAD_CVT
  | some cv =>
    let s := sideOf d 16 cv.src
    let t := sideOf d 40 cv.dst
    let saen := bit x 53
    let daen := bit x 45
    let sad := fld x 48 46
    let dad := fld x 40 38
    let sa : Int := if saen then (w.c.sreg e.ctx (fld x 52 49)).toInt else 0
    let da : Int := if daen then (w.c.sreg e.ctx (fld x 44 41)).toInt else 0
    let loff : Int := (dw d 3).toNat + (if bit x 37 then (w.c.sreg e.ctx (fld x 36 33)).toInt else 0)
    let listBad : Bool := dMode d != 0 && bit x 37 && (decide (loff % 4 ≠ 0) || decide (loff < 0) ||
      (match w.handle e.ctx (fld (dw d 0) 15 12) false with
        | .inl b => decide ((b.size : Int) < loff + listBytes d)
        | .inr _ => true))
    if (saen && decide (5 ≤ sad)) || (daen && decide (5 ≤ dad)) then no St.DMA_MODE
    else if listBad then no St.DMA_GATHER
    else if cv.dstMx && daen && dad == t.mxax && decide (da % 32 ≠ 0) then no St.DMA_MX
    else if bit (dw d 0) 23 && saen && sad == 0 && decide ((s.typ.bytes : Int) * (nth 0 s.o 0 + sa) % 16 ≠ 0) then no St.DMA_ALIGN
    else if (w.c.chan ch).run.isSome then .wait w
    else match w.readList e.ctx ch d loff with
    | none => .wait w
    | some (w, list) =>
      let r : Run :=
        { ctx := e.ctx, slot := slot, pc := e.pc, serial := e.serial, desc := d, sad := if saen then sad else 5, sa := sa
          dad := if daen then dad else 5, da := da, list := list, cvt := cv
          seed := w.c.seed, tweak := w.c.sreg e.ctx 15, span := w.env.span, toRead := [], asked := 0, reading := [], got := [], bad := []
          formed := false, toWrite := [], acks := [], nextTag := 0 }
      let runs := r.srcRuns r.pts
      let w := w.modChan ch (fun k => { k with run := some { r with toRead := if s.fab then runs.1.1 ++ runs.2.1 else [] }, ctx := e.ctx, slot := slot })
      .done (w.formRun ch)

/-! ### Traffic (R242, R245, R264, R331, R333) -/

/-- The flits of a message on VC1 (R245, R500, R501). DEP 1 and 2 mark the lines of a scatter-add. -/
def Wk.msgFlits (w : Wk) (ch dep : Nat) (m : DmaMsg) (far : Bool) (dest : Nat) : List Flit :=
  let n := m.flits.length
  m.flits.mapIdx (fun i p =>
    { Flit.mk' ⟨1, 5, i + 1 == n, far, dest, dep, w.env.code.toNat, ch, m.tag, i - 1⟩ p.1 with err := p.2 })

/-- Is this a status of an access that is only returned: nothing counts, records or reports it (R495)? [DEDUCED, log 58] -/
def onlyReturned (st : Status) : Bool :=
  st == St.MISALIGNED || st == St.NO_CORE || st == St.REGION_OFF || st == St.BANK_OFF || st == St.SCRUBBING || st == St.SVC_BAD

/-- Does a response answer a message: by its number within this die, by the echoed address and the answering die from another (R242, R327,
R500)? [DEDUCED, log 58] -/
def Wk.answers (w : Wk) (h : Hdr) (word1 : BitVec 64) (tag : Nat) (dest : BitVec 64) : Bool :=
  if fld dest 63 48 = w.env.die.toNat then tag == h.mseq else h.mseq == fld dest 63 48 && word1 == dest

/-- A read that has failed with a status: its lines return poisoned, or zero for a denial (R266, R333, R502). [DEDUCED, log 58] -/
def Wk.failRead (w : Wk) (ch : Nat) (m : DmaMsg) (st : Status) : Wk :=
  match (w.c.chan ch).run with
  | none => w
  | some r =>
    let zero := st == St.WIN_DENIED || onlyReturned st
    let w := w.modRun ch (fun r => { r with
      reading := r.reading.filter (fun x => x.tag != m.tag)
      got := iter m.lines (fun i t => tset [] t (m.first + i) (List.replicate 64 0)) r.got
      bad := if zero then r.bad else iter (8 * m.lines) (fun i t => tset false t (8 * m.first + i) true) r.bad })
    (if onlyReturned st then w else (w.dmaErr ch st).spanFault st r.ctx).formRun ch

/-- The message a channel has to inject next, and whether it reads: its read requests, cut under the BURST that stands, before its write
messages (R245). [DESIGN CHOICE, log 57] -/
def Wk.nextMsg (w : Wk) (ch : Nat) (r : Run) : Option (Bool × DmaMsg) :=
  match r.nextRead (atticLine w.env.porch w.env.die) w.lineWay (resBurst (w.chRes ch)) w.env.die with
  | some m => some (true, m)
  | none => r.toWrite.head?.map (fun m => (false, m))

/-- A read request that has been taken from the lines still to ask for. -/
def Run.afterRead (r : Run) (m : DmaMsg) : Run :=
  { r with toRead := r.toRead.drop m.lines, asked := r.asked + m.lines, nextTag := r.nextTag + 1, reading := r.reading ++ [m] }

/-- A message whose last flit has been admitted awaits its answer; before that, the flits sent are counted (R242, R245).
[DESIGN CHOICE, log 57] -/
def Run.afterFlit (r : Run) (rd : Bool) (m : DmaMsg) : Run :=
  if rd then r.afterRead m
  else if m.flits.length ≤ m.sent + 1 then { r with toWrite := r.toWrite.tail, acks := r.acks ++ [(m.tag, m.dest)] }
  else { r with toWrite := { m with sent := m.sent + 1 } :: r.toWrite.tail }

/-- A message that no table routes: dropped whole, with NO_ROUTE. -/
def Wk.unrouted (w : Wk) (ch ctx : Nat) (rd : Bool) (m : DmaMsg) : Wk :=
  let w := w.raise .noRoute
  if rd then (w.modRun ch (fun r => r.afterRead m)).failRead ch m St.NO_ROUTE
  else ((w.modRun ch (fun r => { r with toWrite := r.toWrite.tail })).dmaErr ch St.NO_ROUTE).spanFault St.NO_ROUTE ctx

/-- The next flit of a channel's next message admitted when the injection port is free and the channel's shaper can spend it: one token
a flit of a write message, one a line for a read request (R220, R221, R245). [DESIGN CHOICE, log 57] -/
def Wk.admitDma (w : Wk) (ch : Nat) : Wk :=
  match (w.c.chan ch).run with
  | none => w
  | some r =>
    match w.nextMsg ch r with
    | none => w
    | some (rd, m) =>
      match (w.c.chan ch).shaper.spend (w.chRes ch) w.env.cyc (if rd then m.lines else 1) with
      | none => w
      | some sh =>
        if w.c.injAt = some w.env.cyc then w
        else
          let dep := if dMode r.desc = 3 ∧ rd = false then (if r.cvt.dst = .int32 then 2 else 1) else 0
          match w.fabricDest m.dest with
          | none => w.unrouted ch r.ctx rd m
          | some (far, dest) =>
            match (w.msgFlits ch dep m far dest)[m.sent]? with
            | none => w
            | some f => ((w.modChan ch (fun k => { k with shaper := sh })).modRun ch (fun r => r.afterFlit rd m)).inject f

/-- The outstanding read of a channel that a returned flit answers: same channel and message number. [DESIGN CHOICE, log 55] -/
def Core.readOf (c : Core) (h : Hdr) : Option (Run × DmaMsg) :=
  match (c.chan (h.sep % 4)).run with
  | none => none
  | some r => (r.reading.find? (fun m => m.tag == h.mseq)).map (fun m => (r, m))

/-- One returned line taken; the request ends when all of its lines have come (R242, R264, R266). [DESIGN CHOICE, log 55] -/
def Wk.takeLine (w : Wk) (f : Flit) : Wk :=
  let h := f.h
  let ch := h.sep % 4
  match w.c.readOf h with
  | none => w
  | some (r, m) =>
    let k := m.first + h.fidx
    let bad := (List.range 8).filter (fun i => (tget WErr.clean f.err (i + 1)).read == EccRead.bad)
    let w := w.modRun ch (fun r =>
      let got := tset [] r.got k (payBytes f.pay)
      { r with got := got
               bad := bad.foldl (fun t i => tset false t (8 * k + i) true) r.bad
               reading := if (List.range m.lines).all (fun i => tget [] got (m.first + i) != []) then
                 r.reading.filter (fun x => x.tag != m.tag) else r.reading })
    (if bad.isEmpty then w else (w.dmaErr ch St.MEM_UE).spanFault St.MEM_UE r.ctx).formRun ch

/-- A Service response to a channel: a read's error, or a write's acknowledgement (R242, R266, R333). [DEDUCED, log 58] -/
def Wk.takeAck (w : Wk) (f : Flit) : Wk :=
  let h := f.h
  let ch := h.sep % 4
  let st : Status := BitVec.ofNat 16 (fld (f.word 0) 15 0)
  match (w.c.chan ch).run with
  | none => w
  | some r =>
    match r.reading.find? (fun m => w.answers h (f.word 1) m.tag m.dest), r.acks.find? (fun x => w.answers h (f.word 1) x.1 x.2) with
    | some m, _ => w.failRead ch m st
    | none, some x =>
      let w := w.modRun ch (fun r => { r with acks := r.acks.erase x })
      if st = St.OK ∨ onlyReturned st then w else (w.dmaErr ch st).spanFault st r.ctx
    | none, none => w

/-- A DGO completes once every read has returned and every write has been served by its bank or acknowledged (R242). -/
def Wk.completeRun (w : Wk) (ch : Nat) : Wk :=
  let w := w.formRun ch
  match (w.c.chan ch).run with
  | none => w
  | some r =>
    if r.formed ∧ r.toRead.isEmpty ∧ r.reading.isEmpty ∧ r.toWrite.isEmpty ∧ r.acks.isEmpty ∧ w.c.ports.all (fun x => x.tag != ch + 1) then
      w.modChan ch (fun k => { k with run := none })
    else w

/-- Is any channel running? -/
def Core.dmaBusy (c : Core) : Bool := (List.range 4).any (fun ch => (c.chan ch).run.isSome)

/-- A DMA-class instruction at the head of its queue. -/
def Wk.runDma (w : Wk) (e : QEntry) : Eng :=
  if opc e.word = 0x18 then w.opDdef e else w.opDgo e

/-! ### Accesses from outside the core (R157, R165, R245, R259, R501) -/

/-- Does one open window cover these bytes of a memory for this requester and kind? (R157) -/
def Wk.windowAllows (w : Wk) (write : Bool) (sdie : DieAddr) (score : Nat) (m lo n : Nat) : Bool :=
  (List.range 8).any (fun k =>
    let ctl := w.reg (0x1200 + 16 * k)
    let base := 64 * fld (w.reg (0x1204 + 16 * k)) 16 6
    let size := 64 * fld (w.reg (0x1208 + 16 * k)) 17 6
    bit ctl 31 && bit ctl (if write then 29 else 30) && fld ctl 28 27 == m && decide (base ≤ lo) && decide (lo + n ≤ base + size) &&
      (!bit ctl 24 || (sdie == w.env.die && fld ctl 11 0 == score)))

/-- The memory and offset of a core-window offset, none where no memory lies (R143, R517). -/
def memOfWindow (small : Bool) (o : Nat) : Option (Nat × Nat) :=
  if o < 0x20000 then (if o < memSize small 0 then some (0, o) else none)
  else if o < 0x40000 then some (1, o - 0x20000)
  else if o < 0x50000 then some (2, o - 0x40000)
  else none

/-- The whole flits of the message at the front of some arrivals that `p` picks: same source, endpoint and number, to its TAIL. -/
def takeMessage (p : Flit → Bool) (fs : List Flit) : Option (List Flit) :=
  match fs.find? p with
  | none => none
  | some f =>
    let same := fs.filter (fun g => p g && g.h.src == f.h.src && g.h.sep == f.h.sep && g.h.mseq == f.h.mseq)
    match same.findIdx? (fun g => g.h.tail) with
    | some i => some (same.take (i + 1))
    | none => none

/-- Some flits taken out of the arrivals, first occurrences first. -/
def removeFlits (fs gone : List Flit) : List Flit := gone.foldl (fun l g => l.erase g) fs

/-- Is this arrival a request message on VC1 (and not a line of an outstanding read)? -/
def Core.isRequest (c : Core) (f : Flit) : Bool := f.h.vc == 1 && f.h.kind == 5 && (c.readOf f.h).isNone

/-- One line of a remote write merged into memory, its poisoned words stored as uncorrectable (R165, R235). -/
def Wk.mergeLine (w : Wk) (m o : Nat) (data : List (BitVec 64)) (mask : List Byte) (err : Tbl WErr) : Wk × AccFlags :=
  let ws := ((payBytes data).zip mask).mapIdx (fun i x => (o + i, x.1, x.2))
  let (w, fl) := w.writeMem m portDma (ws.filter (fun x => x.2.2 != 0))
  (iter 8 (fun i w =>
    if (tget WErr.clean err (i + 1)).read = EccRead.bad ∧ (mask.drop (8 * i)).take 8 ≠ List.replicate 8 0 then w.poisonWord m (o + 8 * i)
    else w) w, fl)

/-- One line of a remote scatter-add: one read and one write of the line, each enabled lane added; a word whose old value or whose data was
uncorrectable stays so (R164, R259, R266). -/
def Wk.addLine (w : Wk) (int : Bool) (m o : Nat) (data : List (BitVec 64)) (en : Nat) (err : Tbl WErr) : Wk × AccFlags :=
  let lanes := (List.range 16).filter (fun l => en.testBit (4 * l))
  let offs := lanes.flatMap (fun l => (List.range 4).map (fun i => o + 4 * l + i))
  let old (l : Nat) : Word := BitVec.ofNat 32 (leNat (w.bytesFor m portDma ((List.range 4).map (fun i => o + 4 * l + i))))
  let sum (l : Nat) : Word × NumEv := addElem (if int then .int32 else .fp32) (old l) (BitVec.ofNat 32 (leNat (((payBytes data).drop (4 * l)).take 4)))
  let bad := (List.range 8).filter (fun i => lanes.any (fun l => l / 2 == i) &&
    ((w.errFor portDma m (o + 8 * i)).read == EccRead.bad || (tget WErr.clean err (i + 1)).read == EccRead.bad))
  let ev := lanes.foldl (fun (e : NumEv) l => e.add (sum l).2) {}
  let (w, _, f1) := w.readMem m portDma 0 offs
  let (w, f2) := (w.countNum ev).writeMem m portDma (lanes.flatMap (fun l => (elemWrites (o + 4 * l : Nat) 4 (sum l).1.toNat).map (fun x => (x.1.toNat, x.2))))
  (bad.foldl (fun w i => w.poisonWord m (o + 8 * i)) w, f1.or f2)

/-- The lines of a write message: data words, byte masks and errors (R501). -/
def writeLines (fs : List Flit) : List (List (BitVec 64) × List Byte × Tbl WErr) :=
  match fs with
  | [] => []
  | a :: rest =>
    if fld (a.word 0) 63 56 = 0x14 then
      (List.range (rest.length / 2)).map (fun k =>
        let d := nth a rest (2 * k)
        (d.pay, payBytes (nth a rest (2 * k + 1)).pay, d.err))
    else rest.mapIdx (fun k d =>
      let en := if k < 6 then (a.word (2 + k)).toNat else 2 ^ 64 - 1
      (d.pay, (List.range 64).map (fun i => if en.testBit i then 0xFF else 0), d.err))

/-- The reply to a core's read or write that arrives on VC1: an acknowledgement on the Hallway (R242), an error response, or
data flits that go out after Hallway and before the core's own sources (R245). -/
def Wk.replyStatus (w : Wk) (h : Hdr) (rdie : DieAddr) (word1 : BitVec 64) (st : Status) : Wk :=
  match w.singleHdr 0 6 rdie h.src h.dep h.sep with
  | none => w.raise .noRoute
  | some k =>
    let k := if rdie = w.env.die then { k with mseq := h.mseq, sep := h.sep } else k
    w.pushHall (Flit.mk' k [svcWord0 (if h.tail then 0x12 else 0x13) 0 rdie st, word1])

/-- The status of an access's flags (R160, R164, R495). -/
def AccFlags.status (f : AccFlags) : Status := if f.off then St.BANK_OFF else if f.ue then St.MEM_UE else St.OK

/-- What the port does with a message before it takes it: the status that turns it away, OK when it is accepted (R157, R501, R502). -/
def Wk.remoteCheck (w : Wk) (a : Flit) : Status :=
  let sop := fld (a.word 0) 63 56
  let nl := fld (a.word 0) 54 52 + 1
  let o := fld (a.word 1) 19 0
  if sop ≠ 0x12 ∧ sop ≠ 0x13 ∧ sop ≠ 0x14 then St.SVC_BAD
  else match memOfWindow w.env.smallPantry o, memOfWindow w.env.smallPantry (o + 64 * nl - 1) with
  | some (m, off), some (m2, _) =>
    if o % 64 ≠ 0 then St.MISALIGNED
    else if m ≠ m2 ∨ w.windowAllows (sop != 0x12) (BitVec.ofNat 16 (fld (a.word 0) 47 32)) a.h.src m off (64 * nl) = false then St.WIN_DENIED
    else St.OK
  | _, _ => if 0xC0000 ≤ o ∧ o + 64 * nl ≤ 0xC8000 then (if o % 64 ≠ 0 then St.MISALIGNED else St.WIN_DENIED) else St.SVC_BAD

/-- Must an accepted message wait for a bank to wake (R161)? -/
def Wk.remoteWaits (w : Wk) (fs : List Flit) : Bool :=
  match fs with
  | [] => false
  | a :: _ =>
    match memOfWindow w.env.smallPantry (fld (a.word 1) 19 0) with
    | some (m, off) => w.mustWait m ((List.range (fld (a.word 0) 54 52 + 1)).map (fun i => off + 64 * i))
    | none => false

/-- An accepted read: its lines go back as data flits, a bank that is off and an uncorrectable word with their status (R160, R164, R245). -/
def Wk.remoteRead (w : Wk) (a : Flit) (m off nl : Nat) : Wk :=
  let rdie : DieAddr := BitVec.ofNat 16 (fld (a.word 0) 47 32)
  let (w2, bytes, fl) := w.readMem m portDma 0 ((List.range (64 * nl)).map (fun i => off + i))
  let w2 := w2.noteAcc fl
  if fl.off then w2.replyStatus a.h rdie (a.word 1) St.BANK_OFF
  else
    let bad (k i : Nat) : Bool := (w.errFor portDma m (off + 64 * k + 8 * i)).read == EccRead.bad
    let h := a.h
    let back (far : Bool) (dest : Nat) (t : Option (DieAddr × DieAddr × Nat)) : Wk :=
      let flits := (List.range nl).map (fun k => (⟨(⟨1, 5, k + 1 == nl, far, dest, h.dep, w.env.code.toNat, h.sep, h.mseq, k⟩ : Hdr).pack,
        bytesPay ((bytes.drop (64 * k)).take 64),
        (List.range 8).filterMap (fun i => if bad k i then some (i + 1, WErr.poison) else none), [], t, false⟩ : Flit))
      w2.onCore (fun c => { c with resp := c.resp ++ flits })
    if rdie = w.env.die then back false h.src none
    else match routeModule w.env.porch rdie (flowKey w.env.die w.env.code.toNat) with
      | some x => back true x.1 (some (rdie, w.env.die, h.src))
      | none => w2.raise .noRoute

/-- An accepted message served: its lines read, written or added (R157, R160, R165, R245, R259, R501). -/
def Wk.remoteServe (w : Wk) (fs : List Flit) : Wk :=
  match fs with
  | [] => w
  | a :: _ =>
    let nl := fld (a.word 0) 54 52 + 1
    match memOfWindow w.env.smallPantry (fld (a.word 1) 19 0) with
    | none => w
    | some (m, off) =>
      if fld (a.word 0) 63 56 = 0x12 then w.remoteRead a m off nl
      else
        let lines := writeLines fs
        let (w2, fl) := (List.range lines.length).foldl (fun (x : Wk × AccFlags) k =>
          let (d, ms, er) := nth ([], [], []) lines k
          let (w, f) := if a.h.dep = 1 ∨ a.h.dep = 2 then x.1.addLine (a.h.dep == 2) m (off + 64 * k) d (bitsOf 64 (fun i => nth 0 ms i != 0)) er
            else x.1.mergeLine m (off + 64 * k) d ms er
          (w, x.2.or f)) (w, {})
        (w2.noteAcc fl).replyStatus a.h (BitVec.ofNat 16 (fld (a.word 0) 47 32)) (a.word 1) fl.status

/-- A remote access at the DMA/stream port: one that has been accepted and whose bank has woken is served first; else the oldest message is
checked against the windows as they stand, and taken: turned away, served, or held until its bank wakes (R157 to R161, R501, R502).
[DESIGN CHOICE, log 33] -/
def Wk.serveRemote (w : Wk) : Wk :=
  match w.c.held with
  | fs :: rest => if w.remoteWaits fs then w else (w.onCore (fun c => { c with held := rest })).remoteServe fs
  | [] =>
    match takeMessage w.c.isRequest w.c.rx with
    | none => w
    | some [] => w
    | some (a :: rest) =>
      let gone := w.onCore (fun c => { c with rx := removeFlits c.rx (a :: rest) })
      let st := w.remoteCheck a
      if st = St.OK then
        (if w.remoteWaits (a :: rest) then gone.onCore (fun c => { c with held := [a :: rest] }) else gone.remoteServe (a :: rest))
      else
        let gone := if st = St.WIN_DENIED then (gone.bump 0x940 1).memErr St.WIN_DENIED else gone
        gone.replyStatus a.h (BitVec.ofNat 16 (fld (a.word 0) 47 32)) (a.word 1) st

end Sys2Proof.Machine
end

