-- ==== Sys2Proof/Config.lean ====
section
/-! DEFINITION. The values the manual leaves open, as constants without a body: nothing can evaluate them or prove a value
of them, so a claim holds whatever they are. -/

namespace Sys2Proof

/-- The reciprocal's mapping within its bound (R83, R84: not published). [DESIGN CHOICE, log 16] -/
opaque Config.rcp : Word → Word

/-- The reciprocal square root's mapping within its bound (R83, R84: not published). [DESIGN CHOICE, log 16] -/
opaque Config.rsqrt : Word → Word

/-- The exponential's mapping (R83, R84: not published). [DESIGN CHOICE, log 16] -/
opaque Config.exp : Word → Word

/-- The logarithm's mapping (R83, R84: not published). [DESIGN CHOICE, log 16] -/
opaque Config.log : Word → Word

/-- The hyperbolic tangent's mapping on magnitudes (R83, R84: not published). [DESIGN CHOICE, log 16] -/
opaque Config.tanh : Word → Word

/-- The error function's mapping on magnitudes (R83, R84: not published). [DESIGN CHOICE, log 16] -/
opaque Config.erf : Word → Word

/-- The weight in mA of an engine (0 matrix unit, 1 matrix-vector path, 2 vector engine, 3 DMA agent) at a P-state, set at test
(R393; the figures there are guidance). [DESIGN CHOICE, log 86] -/
opaque Config.weight : Nat → Nat → Nat

/-- The base current in mA of the regions that are on (a mask), the mesh and the Porches, at a P-state (R393).
[DESIGN CHOICE, log 86] -/
opaque Config.baseCurrent : Nat → Nat → Nat

/-- The modelled change in mA that a glide step, a voltage slew or a region's wake or sleep sets aside at a P-state (R397).
[DESIGN CHOICE, log 86] -/
opaque Config.setAside : Nat → Nat

/-- A board's bus characteristics and device characteristics registers of the I3C target, and its status word (R472 names the
commands and gives no value). [DESIGN CHOICE, log 109] -/
opaque Config.i3cReg : Nat → Word

/-- The digest of the boot ROM, measurement 0 (R467). [DESIGN CHOICE, log 106] -/
opaque Config.romDigest : BitVec 384

/-- Is (r, s) a valid ECDSA P-384 signature of a digest under a public key? (R424: FIPS 186, which the manual does
not restate) [DESIGN CHOICE, log 106] -/
opaque Config.ecdsaOk : List Byte → BitVec 384 → List Byte → Bool

/-- An ECDSA P-384 signature of a digest under a private key, with the nonce of RFC 6979 (R468). [DESIGN CHOICE, log 106] -/
opaque Config.ecdsaSign : Nat → BitVec 384 → List Byte

/-- The certificate chain of slot 0 that the DevID and alias keys give (R469: X.509 in DER, whose other fields are not stated).
[DESIGN CHOICE, log 106] -/
opaque Config.certChain : Nat → Nat → BitVec 64 → List Byte

/-- The fuse key-derivation secret K, which no operation reads (R451). [DESIGN CHOICE, log 106] -/
opaque Config.fuseSecret : List Byte

end Sys2Proof
end

