-- ==== Sys2Proof/Machine/Approx.lean ====
section
/-! DEFINITION. Enclosures of the exponential, the logarithm, the hyperbolic tangent and the error function, and the bounds of R82 and
R83 on an FP32 result. A fixed-point number n stands for n / 2^512; an enclosure is a pair of them with the exact value between. -/

namespace Sys2Proof.Machine

/-- The fraction bits of a fixed-point number. -/
def fxBits : Nat := 512

/-- One. -/
def fxOne : Int := 2 ^ fxBits

/-- The product of two fixed-point numbers, rounded down. -/
def fxMul (a b : Int) : Int := a * b / fxOne

/-- A sum of `n` terms, each made from the one before it: `next i t` is term i + 1, and `part i t` what term i adds. -/
def fxSum (n : Nat) (first : Int) (next : Nat → Int → Int) (part : Nat → Int → Int) : Int :=
  ((List.range n).foldl (fun (a : Int × Int) i => (a.1 + part i a.2, next i a.2)) (0, first)).1

/-- ln 2 = Σ 1 / (k · 2^k), from k = 1. -/
def fxLn2 : Int := fxSum 520 (fxOne / 2) (fun _ t => t / 2) (fun i t => t / (i + 1 : Nat))

/-- arctan (1 / q) = Σ (−1)^k / ((2k + 1) q^(2k+1)). -/
def fxAtanInv (q : Nat) : Int :=
  fxSum 230 (fxOne / (q : Nat)) (fun _ t => t / (q * q : Nat)) (fun i t => (if i % 2 = 0 then 1 else -1) * (t / (2 * i + 1 : Nat)))

/-- π = 16 arctan (1/5) − 4 arctan (1/239). -/
def fxPi : Int := 16 * fxAtanInv 5 - 4 * fxAtanInv 239

/-- e^r for 0 ≤ r < 1, by its power series. -/
def fxExp (r : Int) : Int := fxSum 110 fxOne (fun i t => fxMul t r / (i + 1 : Nat)) (fun _ t => t)

/-- The value m · 2^e, e at least −512. -/
def fxOf (neg : Bool) (m : Nat) (e : Int) : Int :=
  let a : Int := (m * 2 ^ (e + fxBits).toNat : Nat)
  if neg then -a else a

/-- An enclosure of e^x for a fixed-point x: x = n ln 2 + r with 0 ≤ r < ln 2. -/
def expIn (x : Int) : Int × Int :=
  if x < -400 * fxOne then (0, 1)
  else
    let n := x / fxLn2
    let y := fxExp (x - n * fxLn2)
    let err : Int := 2 ^ 24
    if 0 ≤ n then ((y - err) * 2 ^ n.toNat, (y + err) * 2 ^ n.toNat) else ((y - err) / 2 ^ (-n).toNat, (y + err) / 2 ^ (-n).toNat + 1)

/-- An enclosure of ln (m · 2^e), m not 0: q ln 2 + 2 artanh z, with m · 2^e = t · 2^q, 1 ≤ t < 2 and z = (t − 1) / (t + 1). -/
def logIn (m : Nat) (e : Int) : Int × Int :=
  let l := Nat.log2 m
  let z : Int := ((m - 2 ^ l) * 2 ^ fxBits / (m + 2 ^ l) : Nat)
  let zz := fxMul z z
  let at_ := fxSum 170 z (fun _ t => fxMul t zz) (fun i t => t / (2 * i + 1 : Nat))
  let v := (e + l) * fxLn2 + 2 * at_
  (v - 2 ^ 24, v + 2 ^ 24)

/-- An enclosure of tanh x for a fixed-point x above 0: (e^2x − 1) / (e^2x + 1). -/
def tanhIn (x : Int) : Int × Int :=
  if 200 * fxOne ≤ x then (fxOne - 2 ^ 24, fxOne)
  else
    let t := expIn (2 * x)
    let f (y : Int) : Int := (y - fxOne) * fxOne / (y + fxOne)
    (f t.1, f t.2 + 1)

/-- An enclosure of erf x for a fixed-point x above 0: (2 / √π) Σ (−1)^n x^(2n+1) / (n! (2n+1)); from 8 on erf x lies between 1 − 2^−90
and 1. -/
def erfIn (x : Int) : Int × Int :=
  if 8 * fxOne ≤ x then (fxOne - 2 ^ (fxBits - 90), fxOne)
  else
    let xx := fxMul x x
    let s := fxSum 430 x (fun i t => -(fxMul t xx) / (i + 1 : Nat)) (fun i t => t / (2 * i + 1 : Nat))
    let root : Int := (Nat.sqrt (fxPi * fxOne).toNat : Nat)
    let y := 2 * s * fxOne / root
    (y - 2 ^ 120, y + 2 ^ 120)

/-- The size of FP32 bits in fixed point, an infinity as 2^128 (R82); none for a NaN. -/
def fxMag (r : Word) : Option Int :=
  match f32 r with
  | .nan => none
  | .inf _ => some (fxOne * 2 ^ 128)
  | .fin _ m e => some (fxOf false m e)

/-- ulp of an exact value of at least `lo` in fixed point (R82). -/
def fxUlp (lo : Int) : Int := 2 ^ (max ((Nat.log2 lo.toNat : Int) - fxBits) (-126) - 23 + fxBits).toNat

/-- Is the size of a result within `k` ulp of an exact size that lies in an enclosure (R82)? -/
def withinUlp (k : Nat) (y : Int × Int) (r : Word) : Bool :=
  match fxMag r with
  | none => false
  | some n =>
    let u := k * fxUlp (max y.1 0)
    decide (n ≤ y.2 + u) && decide (y.1 ≤ n + u)

/-- A free result held to a bound: the size that is asked for where it meets the bound and, with `one`, does not exceed 1.0; else the exact
size rounded to nearest, with `one` 1.0 at most (R82, R83). -/
def bounded (k : Nat) (one : Bool) (y : Int × Int) (r : Word) : Word :=
  let low (x : Word) : Bool := !one || decide (x.toNat ≤ 0x3F800000)
  let r := r &&& 0x7FFFFFFF
  let near := toF32 (.fin false (max y.1 0).toNat (-(fxBits : Nat)))
  if withinUlp k y r && low r then r else if low near then near else 0x3F800000

end Sys2Proof.Machine
end

