-- ==== Sys2Proof/Machine/Vector.lean ====
section
/-! DEFINITION. The vector engine: functions, reductions, moves, loads, stores and amax capture (R82 to R84, R119 to R142). -/

namespace Sys2Proof.Machine

/-! ### Transcendentals (R82, R83) -/

/-- The canonical NaN (R44). -/
def nanF32 : Word := 0x7FC00000

/-- The magnitude bits of an FP32 pattern. -/
def magF32 (x : Word) : Word := x &&& 0x7FFFFFFF

/-- The sign bit of an FP32 pattern, in place. -/
def sgnF32 (x : Word) : Word := x &&& 0x80000000

/-- |n₁·2^e₁| ≤ |n₂·2^e₂| on integers. -/
def dyLe (n1 : Int) (e1 : Int) (n2 : Int) (e2 : Int) : Bool := magLe n1.natAbs e1 n2.natAbs e2

/-- floor(log2 (1/x)) for x = m·2^e. -/
def recipLog (m : Nat) (e : Int) : Int :=
  let l := (Nat.log2 m : Int)
  if m = 2 ^ Nat.log2 m then -(l + e) else -(l + e) - 1

/-- Is r = n·2^f within one ulp of 1/(m·2^e)? (R82, R83) -/
def rcpOk (m : Nat) (e : Int) (n : Nat) (f : Int) : Bool :=
  let u := max (recipLog m e) (-126) - 23
  -- |n·m·2^(e+f) − 1| ≤ m·2^(e+u)
  let lo := min (e + f) 0
  let a : Int := (splitAt (n * m) (e + f - lo)).1
  let b : Int := (splitAt 1 (0 - lo)).1
  dyLe (a - b) lo m (e + u)

/-- 1/(m·2^e) truncated to FP32: a value that meets the bound whatever the free value is. -/
def rcpTrunc (m : Nat) (e : Int) : Word :=
  let u := max (recipLog m e) (-126) - 23
  toF32 (.fin false ((splitAt 1 (-(e + u))).1 / m) u)

/-- reciprocal: exact special cases, odd symmetry, and a free value within the bound elsewhere (R83). [DESIGN CHOICE, log 16] -/
def fRcp (x : Word) : Word :=
  match f32 x with
  | .nan => nanF32
  | .inf _ => sgnF32 x
  | .fin _ m e =>
    if m = 0 then sgnF32 x ||| 0x7F800000
    else if 128 ≤ recipLog m e then sgnF32 x ||| 0x7F800000
    else
      let r := magF32 (Config.rcp (magF32 x))
      let ok := match f32 r with
        | .fin _ n f => rcpOk m e n f
        | .inf _ => rcpOk m e 1 128
        | .nan => false
      sgnF32 x ||| (if ok then r else rcpTrunc m e)

/-- Is r = n·2^f within two ulp of 1/√(m·2^e)? -/
def rsqrtOk (m : Nat) (e : Int) (n : Nat) (f : Int) : Bool :=
  let u := max (recipLog m e / 2) (-126) - 23 + 1
  -- (r − 2ulp)²·x ≤ 1 ≤ (r + 2ulp)²·x, both sides scaled by 2^lo
  let lo := min f u
  let a : Int := (splitAt n (f - lo)).1
  let d : Int := (splitAt 1 (u - lo)).1
  let l := max (a - d) 0
  dyLe (l * l * m) (2 * lo + e) 1 0 && dyLe 1 0 ((a + d) * (a + d) * m) (2 * lo + e)

/-- reciprocal square root: exact special cases, and a free value within the bound elsewhere (R83); a free value
outside the bound stands for the canonical NaN's absence only through `rsqrtOk`. [DESIGN CHOICE, log 16] -/
def fRsqrt (x : Word) : Word :=
  match f32 x with
  | .nan => nanF32
  | .inf s => if s then nanF32 else 0
  | .fin s m e =>
    if m = 0 then sgnF32 x ||| 0x7F800000
    else if s then nanF32
    else
      let l := (Nat.log2 m : Int)
      if m = 2 ^ Nat.log2 m ∧ (l + e) % 2 = 0 then toF32 (.fin false 1 (-((l + e) / 2)))
      else
        let r := magF32 (Config.rsqrt x)
        let ok := match f32 r with
          | .fin _ n f => rsqrtOk m e n f
          | _ => false
        if ok then r
        else
          let u := recipLog m e / 2 - 23
          -- floor(√(1/x)/2^u) by the integer square root of floor(2^(−2u)/x)
          toF32 (.fin false (Nat.sqrt ((splitAt 1 (-(2 * u) - e)).1 / m)) u)

/-- exp: exact special cases, +∞ where the exact value is 2^128 or more, never negative, and elsewhere a free value within 2 ulp (R82, R83).
[DESIGN CHOICE, log 16] [DESIGN CHOICE, log 18] -/
def fExp (x : Word) : Word :=
  match f32 x with
  | .nan => nanF32
  | .inf s => if s then 0 else 0x7F800000
  | .fin s m e =>
    if m = 0 then 0x3F800000
    else if s = false ∧ 8 ≤ (Nat.log2 m : Int) + e then 0x7F800000
    else
      let y := expIn (fxOf s m e)
      if fxOne * 2 ^ 128 ≤ y.1 then 0x7F800000 else bounded 2 false y (Config.exp x)

/-- log: exact special cases, and elsewhere a free value within 2 ulp (R83). [DESIGN CHOICE, log 16] -/
def fLog (x : Word) : Word :=
  match f32 x with
  | .nan => nanF32
  | .inf s => if s then nanF32 else 0x7F800000
  | .fin s m e =>
    if m = 0 then 0xFF800000
    else if s then nanF32
    else if x = 0x3F800000 then 0
    else
      let y := logIn m e
      if y.1 < 0 then 0x80000000 ||| bounded 2 false (-y.2, -y.1) (Config.log x) else bounded 2 false y (Config.log x)

/-- tanh: exact special cases, odd symmetry, |result| ≤ 1, and elsewhere a free value within 3 ulp (R83).
[DESIGN CHOICE, log 16] -/
def fTanh (x : Word) : Word :=
  match f32 x with
  | .nan => nanF32
  | .inf _ => sgnF32 x ||| 0x3F800000
  | .fin _ m e => if m = 0 then x else sgnF32 x ||| bounded 3 true (tanhIn (fxOf false m e)) (Config.tanh (magF32 x))

/-- erf: exact special cases, odd symmetry, |result| ≤ 1, and elsewhere a free value within 4 ulp (R83).
[DESIGN CHOICE, log 16] -/
def fErf (x : Word) : Word :=
  match f32 x with
  | .nan => nanF32
  | .inf _ => sgnF32 x ||| 0x3F800000
  | .fin _ m e => if m = 0 then x else sgnF32 x ||| bounded 4 true (erfIn (fxOf false m e)) (Config.erf (magF32 x))

/-! ### Element functions (R126, R127) -/

/-- max of R127. -/
def fMax (a b : Word) : Word :=
  if (f32 a).isNan || (f32 b).isNan then nanF32
  else if (f32 a).isZero && (f32 b).isZero then a &&& b
  else if (f32 a).lt (f32 b) then b else a

/-- min of R127. -/
def fMin (a b : Word) : Word :=
  if (f32 a).isNan || (f32 b).isNan then nanF32
  else if (f32 a).isZero && (f32 b).isZero then a ||| b
  else if (f32 b).lt (f32 a) then b else a

/-- All ones or zero, by a condition. -/
def maskOf (b : Bool) : Word := if b then 0xFFFFFFFF else 0

/-- A result that counts nothing. -/
def quiet (x : Word) : Word × NumEv := (x, {})

/-- NaN made canonical. -/
def canonF32 (x : Word) : Word := if (f32 x).isNan then nanF32 else x

/-- Is a = b as FP32 values? -/
def fEq (a b : Word) : Bool :=
  !(f32 a).isNan && !(f32 b).isNan && !(f32 a).lt (f32 b) && !(f32 b).lt (f32 a)

/-- Are either of these NaN? -/
def fUn (a b : Word) : Bool := (f32 a).isNan || (f32 b).isNan

/-- A VOP function other than ROTL and CVT: none where the type does not have it or the code is not in the table (R126). -/
def vopFn (fn : Nat) (int : Bool) (a b c : Word) : Option (Word × NumEv) :=
  match fn, int with
  | 0x00, _ => some (quiet a)
  | 0x01, false => some (fAdd a b)
  | 0x01, true => some (quiet (a + b))
  | 0x02, false => some (fAdd a (if (f32 b).isNan then b else b ^^^ 0x80000000))
  | 0x02, true => some (quiet (a - b))
  | 0x03, false => some (fMul a b)
  | 0x03, true => some (quiet (a * b))
  | 0x04, false => some (fFma a b c)
  | 0x05, false => some (quiet (fMax a b))
  | 0x05, true => some (quiet (if a.slt b then b else a))
  | 0x06, false => some (quiet (fMin a b))
  | 0x06, true => some (quiet (if b.slt a then b else a))
  | 0x07, false => some (quiet (if (f32 a).isNan then nanF32 else magF32 a))
  | 0x07, true => some (quiet (if a.slt 0 then -a else a))
  | 0x08, false => some (quiet (if (f32 a).isNan then nanF32 else a ^^^ 0x80000000))
  | 0x08, true => some (quiet (-a))
  | 0x09, false => some (quiet (maskOf (fEq a b)))
  | 0x09, true => some (quiet (maskOf (a == b)))
  | 0x0A, false => some (quiet (maskOf ((f32 a).lt (f32 b))))
  | 0x0A, true => some (quiet (maskOf (a.slt b)))
  | 0x0B, false => some (quiet (maskOf ((f32 a).lt (f32 b) || fEq a b)))
  | 0x0B, true => some (quiet (maskOf (a.sle b)))
  | 0x0C, false => some (quiet (maskOf (fUn a b)))
  | 0x0D, _ => some (quiet (if bit c 0 then a else b))
  | 0x0E, _ => some (quiet (a &&& b))
  | 0x0F, _ => some (quiet (a ||| b))
  | 0x10, _ => some (quiet (a ^^^ b))
  | 0x11, true => some (quiet (a <<< fld b 4 0))
  | 0x12, true => some (quiet (a.sshiftRight (fld b 4 0)))
  | 0x13, true => some (quiet (a >>> fld b 4 0))
  | 0x18, false => some (quiet (fRcp a))
  | 0x19, false => some (quiet (fRsqrt a))
  | 0x1A, false => some (quiet (fExp a))
  | 0x1B, false => some (quiet (fLog a))
  | 0x1C, false => some (quiet (fTanh a))
  | 0x1D, false => some (quiet (fErf a))
  | _, _ => none

/-- Is this FN code in R126's table? -/
def vopFnKnown (fn : Nat) : Bool := decide (fn ≤ 0x15) || (decide (0x18 ≤ fn) && decide (fn ≤ 0x1D))

/-- A vector register (R119). [DESIGN CHOICE, log 10] -/
def Wk.vreg (w : Wk) (n : Nat) : List Word := tget (List.replicate 128 0) w.c.v n

/-- A vector register set. -/
def Wk.setV (w : Wk) (n : Nat) (v : List Word) : Wk :=
  w.onCore (fun c => { c with v := tset (List.replicate 128 0) c.v n v })

/-- The element of an operand under its view (R122). -/
def viewAt (v : List Word) (view r l : Nat) : Word :=
  nth 0 v (match view with | 0 => 16 * r + l | 1 => l | 2 => 16 * r | _ => 0)

/-- Is element i enabled by predicates, shape and mask register? (R123, R195) -/
def Wk.vecOn (w : Wk) (e : QEntry) (men : Bool) (mv : Nat) (i : Nat) : Bool :=
  let r := i / 16
  let l := i % 16
  bit e.p r && bit e.q l && bit e.sr r && bit e.sc l && (!men || bit (nth 0 (w.vreg mv) i) 0)

/-- VOP (R125 to R128). [DEDUCED, log 27] -/
def Wk.opVop (w : Wk) (e : QEntry) : Eng :=
  let x := e.word
  let fn := fld x 57 52
  let int := bit x 25
  let va := w.vreg (fld x 46 42)
  let vb := w.vreg (fld x 41 37)
  let vc := w.vreg (fld x 36 32)
  let a (r l : Nat) : Word := viewAt va (fld x 31 30) r l
  let elems : (List (Word × NumEv)) ⊕ Status :=
    if !vopFnKnown fn then .inr St.VE_FN
    else if fn = 0x14 then
      .inl ((List.range 128).map (fun i => quiet (a (i / 16) ((i % 16 + fld x 35 32) % 16))))
    else if fn = 0x15 then
      match w.cvt (w.c.sreg e.ctx (fld x 35 32)) with
      | none => .inr St.BAD_CVT
      | some c =>
        if c.src = (if int then .int32 else .fp32) ∧ (c.dst = .fp32 ∨ c.dst = .int32) ∧ c.srcMx = false ∧ c.dstMx = false then
          .inl ((List.range 128).map (fun i =>
            let (y, ev) := c.elem 0 (w.uFor c e.ctx i) (a (i / 16) (i % 16)).toNat
            (BitVec.ofNat 32 y, ev)))
        else .inr St.BAD_CVT
    else
      match vopFn fn int 0 0 0 with
      | none => .inr St.BAD_TYPE
      | some _ => .inl ((List.range 128).map (fun i =>
          (vopFn fn int (a (i / 16) (i % 16)) (viewAt vb (fld x 29 28) (i / 16) (i % 16))
            (viewAt vc (fld x 27 26) (i / 16) (i % 16))).getD (quiet 0)))
  match elems with
  | .inr st => .refuse w st
  | .inl rs =>
    let on := w.vecOn e (bit x 18) (fld x 17 13)
    let old := w.vreg (fld x 51 47)
    let new := old.mapIdx (fun i o => if on i then (nth (quiet 0) rs i).1 else o)
    let ev := ((List.range 128).filter on).foldl (fun s i => s.add (nth (quiet 0) rs i).2) ({} : NumEv)
    let w := w.setV (fld x 51 47) new
    .done (if fn = 0x15 then w.countNum ev else w.countVec ev)

/-- A reduction's combining step and identity, none for the reserved code (R129). -/
def vredOp : Nat → Option ((Word → Word → Word × NumEv) × Word)
  | 0 => some (fAdd, 0x80000000)
  | 1 => some (fun a b => quiet (fMax a b), 0xFF800000)
  | 2 => some (fun a b => quiet (fMin a b), 0x7F800000)
  | 3 => some (fun a b => quiet (if fUn a b then nanF32 else fMax (magF32 a) (magF32 b)), 0)
  | 4 => some (fun a b => quiet (a + b), 0)
  | 5 => some (fun a b => quiet (if a.slt b then b else a), 0x80000000)
  | 6 => some (fun a b => quiet (if b.slt a then b else a), 0x7FFFFFFF)
  | _ => none

/-- Neighbouring values combined in pairs, the lower-numbered the left operand (R129). -/
def treeLevel (f : Word → Word → Word × NumEv) : List Word → List Word × NumEv
  | a :: b :: t =>
    let (x, e) := f a b
    let (r, es) := treeLevel f t
    (x :: r, e.add es)
  | l => (l, {})

/-- `n` levels of the tree (R129). -/
def tree (f : Word → Word → Word × NumEv) : Nat → List Word → List Word × NumEv
  | 0, l => (l, {})
  | n + 1, l =>
    let (r, e) := treeLevel f l
    let (q, e') := tree f n r
    (q, e.add e')

/-- The results of the lane tree over each of the eight rows, or of the row tree over each lane. -/
def trees (f : Word → Word → Word × NumEv) (n : Nat) (ls : List (List Word)) : List Word × NumEv :=
  ls.foldl (fun (a : List Word × NumEv) l =>
    let (r, e) := tree f n l
    (a.1 ++ [r.headD 0], a.2.add e)) ([], {})

/-- VRED (R129). -/
def Wk.opVred (w : Wk) (e : QEntry) : Eng :=
  let x := e.word
  let axis := fld x 54 53
  match vredOp (fld x 57 55) with
  | none => .refuse w St.VE_FN
  | some (f, ident) =>
    if axis = 3 then .refuse w St.VE_FN
    else
      let va := w.vreg (fld x 47 43)
      let src (i : Nat) : Word := if w.vecOn e (bit x 36) (fld x 35 31) i then nth 0 va i else ident
      let rows := (List.range 8).map (fun r => (List.range 16).map (fun l => src (16 * r + l)))
      let cols := (List.range 16).map (fun l => (List.range 8).map (fun r => src (16 * r + l)))
      let (res, ev) : List Word × NumEv :=
        if axis = 0 then
          let (r, ev) := trees f 4 rows
          ((List.range 128).map (fun i => nth 0 r (i / 16)), ev)
        else if axis = 1 then
          let (r, ev) := trees f 3 cols
          ((List.range 128).map (fun i => nth 0 r (i % 16)), ev)
        else
          let (r, e1) := trees f 4 rows
          let (t, e2) := tree f 3 r
          (List.replicate 128 (t.headD 0), e1.add e2)
      let w := w.setV (fld x 52 48) res
      let w := if bit x 30 then w.setS e.ctx (fld x 29 26) (res.headD 0) else w
      .done (w.countVec ev)

/-- VMS (R130). -/
def Wk.opVms (w : Wk) (e : QEntry) : Eng :=
  let x := e.word
  let vr := fld x 56 52
  let s := fld x 51 48
  if bit x 57 then
    .done (w.setS e.ctx s (nth 0 (w.vreg vr) (16 * fld x 47 45 + fld x 44 41)))
  else
    let v := w.c.sreg e.ctx s
    .done (w.setV vr ((w.vreg vr).mapIdx (fun i o => if w.vecOn e false 0 i then v else o)))

/-- What a VLD or VST's fields give: the conversion (none for raw), the memory-side type, the strides (R132 to R134). -/
structure VecMem where
  cvt : Option Cvt
  typ : Option ElemType
  rs : Int
  ls : Int
deriving DecidableEq, Repr

/-- The conversion, type and strides of a VLD or VST, or the status that refuses it (R132 to R134). -/
def Wk.vecMem (w : Wk) (e : QEntry) (store : Bool) (a : Int) : VecMem ⊕ Status :=
  let x := e.word
  let cven := bit x 28
  let sten := bit x 23
  let sts := w.c.sreg e.ctx (fld x 22 19)
  let cvo : Option (Option Cvt) :=
    if cven then
      match w.cvt (w.c.sreg e.ctx (fld x 27 24)) with
      | none => none
      | some c =>
        let reg := if store then c.src else c.dst
        let regMx := if store then c.srcMx else c.dstMx
        if (reg = .fp32 ∨ reg = .int32) ∧ regMx = false then some (some c) else none
    else some none
  match cvo with
  | none => .inr St.BAD_CVT
  | some cv =>
    let mt : Option ElemType := cv.map (fun c => if store then c.dst else c.src)
    let mx := match cv with | some c => if store then c.dstMx else c.srcMx | none => false
    let planar := match mt with | some t => t.planar | none => false
    let z : Nat := match mt with | some t => t.bytes | none => 4
    if mt = some .e3m2 ∨ mt = some .e2m3 then .inr St.BAD_TYPE
    else if sten && (planar || mx) then .inr St.VE_AMODE
    else if planar then
      if a % 64 ≠ 0 then .inr St.VE_AMODE
      else if store ∧ fld x 6 4 ≠ 0 ∧ (cv.map (·.src)) ≠ some .fp32 ∧ cven then .inr St.VE_AMODE
      else .inl ⟨cv, mt, 0, 0⟩
    else
      let rs : Int := if sten then sx (fld sts 31 16) 16 else (16 * z : Nat)
      let ls : Int := if sten then sx (fld sts 15 0) 16 else (z : Nat)
      if a % z ≠ 0 ∨ rs % z ≠ 0 ∨ ls % z ≠ 0 then .inr St.VE_AMODE
      else if store ∧ cven ∧ fld x 6 4 ≠ 0 ∧ (cv.map (·.src)) ≠ some .fp32 then .inr St.VE_AMODE
      else .inl ⟨cv, mt, rs, ls⟩

/-- VLD (R131 to R135). [DEDUCED, log 27] [DEDUCED, log 138] -/
def Wk.opVld (w : Wk) (e : QEntry) : Eng :=
  let x := e.word
  let a := w.addr e.ctx (fld x 43 29) 4 (bit x 48) (fld x 47 44)
  match w.handle e.ctx (fld x 52 49) false with
  | .inr st => .refuse w st
  | .inl buf =>
    match w.vecMem e false a with
    | .inr st => .refuse w st
    | .inl m =>
      let mx := match m.cvt with | some c => c.srcMx | none => false
      let planar := match m.typ with | some t => t.planar | none => false
      let z : Nat := match m.typ with | some t => t.bytes | none => 4
      let offs := if planar then span a 64
        else (List.range 128).flatMap (fun i => span (a + (i / 16 : Nat) * m.rs + (i % 16 : Nat) * m.ls) z)
      let sbuf := if mx then w.handle e.ctx (fld x 3 0) false else .inl buf
      match sbuf with
      | .inr st => .refuse w st
      | .inl sb =>
        let soffs := if mx then span (w.c.sreg e.ctx (fld x 22 19)).toInt 4 else []
        if w.bufWait buf offs || w.bufWait sb soffs then .wait w
        else
          let (w, sc, f2) := w.readBuf sb portVector e.ctx soffs
          let (w, bytes, f1) := w.readBuf buf portVector e.ctx offs
          let on := w.vecOn e (bit x 12) (fld x 11 7)
          let rs : List (Word × NumEv) := (List.range 128).map (fun i =>
            match m.cvt with
            | none => quiet (BitVec.ofNat 32 (elemAt bytes 4 i))
            | some c =>
              let v := if planar then planeElem bytes c.src.bits i else elemAt bytes z i
              let (y, ev) := c.elem (nth 0 sc (i / 32)).toNat (w.uFor c e.ctx i) v
              (BitVec.ofNat 32 y, ev))
          let vd := fld x 57 53
          let new := (w.vreg vd).mapIdx (fun i o => if on i then (nth (quiet 0) rs i).1 else o)
          let ev := ((List.range 128).filter on).foldl (fun s i => s.add (nth (quiet 0) rs i).2) ({} : NumEv)
          .done (((w.setV vd new).noteAcc (f1.or f2)).countNum ev)

/-- An amax slot after one captured value (R136). -/
def amaxStep (slot x : Word) : Word :=
  if (f32 slot).isNan then slot
  else if (f32 x).isNan then nanF32
  else if slot.toNat < (magF32 x).toNat then magF32 x else slot

/-- The block of a VST under DST_MX: its enabled elements encoded by R62, as (index, bits), with the scale byte (R134). -/
def vstBlock (w : Wk) (e : QEntry) (c : Cvt) (v : List Word) (on : Nat → Bool) (b : Nat) : List (Nat × Nat) × Option Nat × NumEv :=
  let idx := ((List.range 32).map (fun i => 32 * b + i)).filter on
  if idx.isEmpty then ([], none, {})
  else
    let (els, sc, ev) := encodeBlock c (idx.map (fun i => (c.decode 0 (nth 0 v i).toNat, w.uFor c e.ctx i)))
    (idx.zip els, some sc, ev)

/-- Values captured into an amax slot, and noted as captures of this cycle (R136, R137). -/
def Wk.capture (w : Wk) (slot : Nat) (xs : List Word) : Wk :=
  w.onCore (fun c =>
    let o := tget (0, 0) c.caps slot
    { c.setReg (0x820 + 4 * slot) (xs.foldl amaxStep (c.reg (0x820 + 4 * slot))) with
      caps := tset (0, 0) c.caps slot (w.env.cyc + 1, xs.foldl amaxStep (if o.1 = w.env.cyc + 1 then o.2 else 0)) })

/-- VST (R131 to R136). [DEDUCED, log 27] -/
def Wk.opVst (w : Wk) (e : QEntry) : Eng :=
  let x := e.word
  let a := w.addr e.ctx (fld x 43 29) 4 (bit x 48) (fld x 47 44)
  match w.handle e.ctx (fld x 52 49) true with
  | .inr st => .refuse w st
  | .inl buf =>
    match w.vecMem e true a with
    | .inr st => .refuse w st
    | .inl m =>
      let mx := match m.cvt with | some c => c.dstMx | none => false
      let planar := match m.typ with | some t => t.planar | none => false
      let z : Nat := match m.typ with | some t => t.bytes | none => 4
      let v := w.vreg (fld x 57 53)
      let on := w.vecOn e (bit x 12) (fld x 11 7)
      let idx := (List.range 128).filter on
      let sbuf := if mx then w.handle e.ctx (fld x 3 0) true else .inl buf
      match sbuf with
      | .inr st => .refuse w st
      | .inl sb =>
        let so : Int := (w.c.sreg e.ctx (fld x 22 19)).toInt
        let (els, scs, ev) : List (Nat × Nat) × List (Int × Byte × Byte) × NumEv :=
          match m.cvt with
          | none => (idx.map (fun i => (i, (nth 0 v i).toNat)), [], {})
          | some c =>
            if mx then
              (List.range 4).foldl (fun (s : List (Nat × Nat) × List (Int × Byte × Byte) × NumEv) b =>
                let (es, sc, ev) := vstBlock w e c v on b
                (s.1 ++ es, s.2.1 ++ (match sc with
                  | some y => [(so + (b : Nat), BitVec.ofNat 8 y, 0xFF)]
                  | none => []), s.2.2.add ev)) ([], [], {})
            else
              let r := idx.map (fun i => (i, c.elem 0 (w.uFor c e.ctx i) (nth 0 v i).toNat))
              (r.map (fun y => (y.1, y.2.1)), [], r.foldl (fun s y => s.add y.2.2) {})
        let ws := if planar then planeWrites a (match m.typ with | some t => t.bits | none => 4) els
          else els.flatMap (fun y => elemWrites (a + (y.1 / 16 : Nat) * m.rs + (y.1 % 16 : Nat) * m.ls) z y.2)
        if w.bufWait buf (ws.map (·.1)) || w.bufWait sb (scs.map (·.1)) then .wait w
        else
          let (w, f1) := w.writeBuf buf portVector ws
          let (w, f2) := w.writeBuf sb portVector scs
          let cap := fld x 6 4
          let w := if cap = 0 then w else w.capture cap (idx.map (nth 0 v))
          .done ((w.noteAcc (f1.or f2)).countNum ev)

/-- VAMX (R137). -/
def Wk.opVamx (w : Wk) (e : QEntry) : Eng :=
  let x := e.word
  let slot := fld x 57 55
  if slot = 0 then .refuse w St.VE_FN
  else
    let w := w.setS e.ctx (fld x 54 51) (w.reg (0x820 + 4 * slot))
    .done (if bit x 50 then (w.setReg (0x820 + 4 * slot) 0).onCore (fun c => { c with caps := tset (0, 0) c.caps slot (0, 0) }) else w)

end Sys2Proof.Machine
end

