-- ==== Sys2Proof/Machine/Engine.lean ====
section
/-! DEFINITION. The engines at the heads of their queues: scoreboards, start grants, acceptance and refusal (R109, R110, R114,
R174 to R179, R395, R396). -/

namespace Sys2Proof.Machine

/-! ### The scalar registers an instruction reads and writes (R178) -/

/-- `[n]` when `b`, else nothing. -/
def whenOn (b : Bool) (n : Nat) : List Nat := if b then [n] else []

/-- The scalar registers an instruction reads, by its encoding (R88, R131, R178, R216, R252, R260, R272, R279, R301). -/
def readsOf (x : BitVec 64) : List Nat :=
  match opc x with
  | 0x20 => whenOn (bit x 31) (fld x 30 27)
  | 0x22 => whenOn (bit x 50) (fld x 49 46)
  | 0x23 => whenOn (bit x 43) (fld x 42 39)
  | 0x24 => whenOn (bit x 47) (fld x 46 43)
  | 0x25 => whenOn (bit x 47) (fld x 46 43) ++ (if bit x 27 then [fld x 26 23, 15] else [])
  | 0x28 => whenOn (bit x 52) (fld x 51 48)
  | 0x2A => whenOn (bit x 47) (fld x 46 43)
  | 0x30 => if fld x 57 52 = 0x15 then [fld x 35 32, 15] else []
  | 0x31 => whenOn (bit x 48) (fld x 47 44) ++ (if bit x 28 then [fld x 27 24, fld x 22 19, 15] else whenOn (bit x 23) (fld x 22 19))
  | 0x32 => whenOn (bit x 48) (fld x 47 44) ++ (if bit x 28 then [fld x 27 24, fld x 22 19, 15] else whenOn (bit x 23) (fld x 22 19))
  | 0x34 => if bit x 57 then [] else [fld x 51 48]
  | 0x18 => whenOn (bit x 49) (fld x 48 45)
  | 0x19 => whenOn (bit x 53) (fld x 52 49) ++ whenOn (bit x 45) (fld x 44 41) ++ whenOn (bit x 37) (fld x 36 33) ++ [15]
  | 0x1C => whenOn (bit x 49) (fld x 48 45)
  | 0x1D => if bit x 24 then [] else whenOn (bit x 49) (fld x 48 45)
  | 0x10 => whenOn (fld x 54 53 == 2) (fld x 40 37)
  | 0x11 => whenOn (fld x 54 53 == 2) (fld x 40 37) ++ whenOn (bit x 10) (fld x 9 6)
  | 0x13 => whenOn (fld x 54 53 == 2) (fld x 40 37)
  | 0x14 => [fld x 52 49, fld x 48 45]
  | _ => []

/-- The scalar registers an engine instruction writes (R129, R130, R137, R218, R275, R279). -/
def writesOf (x : BitVec 64) : List Nat :=
  match opc x with
  | 0x33 => whenOn (bit x 30) (fld x 29 26)
  | 0x34 => whenOn (bit x 57) (fld x 51 48)
  | 0x35 => [fld x 54 51]
  | 0x1E => [fld x 53 50]
  | 0x11 => whenOn (bit x 5) (fld x 4 1)
  | 0x13 => [fld x 16 13]
  | _ => []

/-- Every instruction in the queues 1 to 5. -/
def Core.waiting (c : Core) : List QEntry := [1, 2, 3, 4, 5].flatMap c.queue

/-- Has a waiting entry already read its scalar registers? Only one that is expanded has (R178). -/
def QEntry.hasRead (e : QEntry) : Bool := e.started || e.headAt.isSome

/-- Is there an earlier engine write to one of `regs` of a context that has not completed by cycle `cyc` (R178)? `before` is the
serial of the instruction that asks. -/
def Core.pendingWrite (c : Core) (cyc ctx : Nat) (regs : List Nat) (before : Nat) : Bool :=
  regs.any (fun r => decide (cyc < tget 0 c.ve.sDone (16 * ctx + r))) ||
    c.waiting.any (fun e => e.ctx == ctx && decide (e.serial < before) && (writesOf e.word).any regs.contains)

/-- Is there an earlier instruction waiting that has still to read one of `regs` of a context (R178)? -/
def Core.pendingRead (c : Core) (ctx : Nat) (regs : List Nat) : Bool :=
  c.waiting.any (fun e => e.ctx == ctx && !e.hasRead && (readsOf e.word).any regs.contains)

/-! ### The pipes of the vector engine (R138 to R140) -/

/-- What the pipes need to know of a vector instruction: its pipe, the registers it reads and writes, its occupancy, its dependent
distance, and for how many cycles it reads its sources and goes on writing its result after that distance. -/
structure VeTiming where
  ls : Bool
  reads : List Nat
  writes : List Nat
  occ : Nat
  dist : Nat
  reading : Nat
  writing : Nat
deriving DecidableEq, Repr

/-- The distinct lines that a row's offsets touch. -/
def linesOf (os : List Int) : Nat := ((os.map (fun o => o / 64)).eraseDups).length

/-- Is the line at an offset of a memory in a bank that is far for the vector port? (R145, R482) -/
def Wk.farVector (w : Wk) (m o : Nat) : Bool :=
  let b := w.bankAt m o
  if numBanks w.env.smallPantry m = 16 then !(decide (8 ≤ b) && decide (b < 12)) else !(decide (4 ≤ b) && decide (b < 6))

/-- Does a memory-side type with a scale per block come with it (DST_MX of a VST, SRC_MX of a VLD)? -/
def VecMem.mx (m : VecMem) (store : Bool) : Bool :=
  match m.cvt with
  | some c => if store then c.dstMx else c.srcMx
  | none => false

/-- The addresses of a VLD or VST, row by row; of a plane group, or with STEN = 0, one address for each 64 bytes (R132, R140). -/
def VecMem.rows (m : VecMem) (sten : Bool) (a : Int) : List (List Int) :=
  let z : Nat := match m.typ with | some t => t.bytes | none => 4
  if (match m.typ with | some t => t.planar | none => false) then [[a]]
  else if sten then (List.range 8).map (fun r => (List.range 16).map (fun l => a + (r : Nat) * m.rs + (l : Nat) * m.ls))
  else (List.range (2 * z)).map (fun k => [a + (64 * k : Nat)])

/-- The buffer of a VLD or VST, its lines in the order in which its port takes them, and the buffer that SCH maps when it has scales; none of
an instruction that is refused (R132, R140). -/
def Wk.vecLines (w : Wk) (e : QEntry) (store : Bool) : Option (Buf × VecMem × Int × Option Buf) :=
  let x := e.word
  let a := w.addr e.ctx (fld x 43 29) 4 (bit x 48) (fld x 47 44)
  match w.handle e.ctx (fld x 52 49) store, w.vecMem e store a with
  | .inl buf, .inl m =>
    if m.mx store then
      match w.handle e.ctx (fld x 3 0) store with
      | .inl sb => some (buf, m, a, some sb)
      | .inr _ => none
    else some (buf, m, a, none)
  | _, _ => none

/-- The port cycles of a VLD or VST, and whether it reaches a far bank (R140, R147). -/
def Wk.portCycles (w : Wk) (e : QEntry) (store : Bool) : Nat × Bool :=
  match w.vecLines e store with
  | none => (1, false)
  | some (buf, m, a, sb) =>
    let rows := m.rows (bit e.word 23) a
    ((rows.map linesOf).foldl (· + ·) 0 + b2n sb.isSome, (buf.offs (rows.flatMap id)).any (w.farVector buf.mem))

/-- The accesses of an accepted VLD or VST on the vector port, a line a cycle from its start, the scale bytes last (R140, R151):
reads from cycle 1, writes from cycle 1, from 4 with conversion, or from 6 under DST_MX. -/
def Wk.vecAsks (w : Wk) (e : QEntry) : List PortReq :=
  let x := e.word
  let store := opc x == 0x32
  match w.vecLines e store with
  | none => []
  | some (buf, m, a, sb) =>
    let start := w.env.cyc + (if store then (if m.mx true then 6 else if bit x 28 then 4 else 1) else 1)
    let at_ (mem k o : Nat) : PortReq :=
      let br := bankRow w.c.annex w.env.smallPantry mem o
      ⟨portVector, mem, br.1, br.2, store, start + k, 0, if store then 16 else 32 + fld x 57 53⟩
    let lines := (m.rows (bit x 23) a).flatMap (fun r => linesIn (buf.offs r))
    lines.mapIdx (fun k o => at_ buf.mem k o) ++
      (match sb with
        | some b => ((b.offs [(w.c.sreg e.ctx (fld x 22 19)).toInt]).map (at_ b.mem lines.length))
        | none => [])

/-- The dependent distance and the occupancy of a VOP function (R139). -/
def vopTiming (fn : Nat) (int : Bool) : Nat × Nat :=
  if 0x18 ≤ fn then (16, 8)
  else if fn = 0x15 then (3, 4)
  else if fn = 0x03 ∧ int then (3, 4)
  else if int = false ∧ (fn = 0x01 ∨ fn = 0x02 ∨ fn = 0x03 ∨ fn = 0x04 ∨ fn = 0x05 ∨ fn = 0x06) then (4, 4)
  else (2, 4)

/-- The source registers a VOP's function uses (R125, R126). [DEDUCED, log 28] -/
def vopReads (x : BitVec 64) : List Nat :=
  let fn := fld x 57 52
  let two := (decide (0x01 ≤ fn) && decide (fn ≤ 0x06)) || (decide (0x09 ≤ fn) && decide (fn ≤ 0x13))
  fld x 46 42 :: (whenOn two (fld x 41 37) ++ whenOn (fn == 0x04 || fn == 0x0D) (fld x 36 32))

/-- The timing of a vector instruction (R138 to R140). -/
def Wk.veTiming (w : Wk) (e : QEntry) : VeTiming :=
  let x := e.word
  let masked (men hi lo : Nat) : List Nat := if bit x men then [fld x hi lo] else []
  match opc x with
  | 0x30 =>
    let t := vopTiming (fld x 57 52) (bit x 25)
    ⟨false, vopReads x ++ masked 18 17 13, [fld x 51 47], t.2, t.1, t.2, 3⟩
  | 0x31 =>
    let p := w.portCycles e false
    let mx := match w.cvt (w.c.sreg e.ctx (fld x 27 24)) with | some c => bit x 28 && c.srcMx | none => false
    ⟨true, masked 12 11 7, [fld x 57 53], p.1, p.1 + 2 + 2 * b2n p.2 + 3 * b2n (bit x 28) + 2 * b2n mx, 4, 0⟩
  | 0x32 =>
    let p := w.portCycles e true
    let mx := match w.cvt (w.c.sreg e.ctx (fld x 27 24)) with | some c => bit x 28 && c.dstMx | none => false
    ⟨true, fld x 57 53 :: masked 12 11 7, [], p.1, (if mx then 6 else if bit x 28 then 4 else 1) + p.1, 4, 0⟩
  | 0x33 => ⟨false, fld x 47 43 :: masked 36 35 31, [fld x 52 48], 4, if fld x 54 53 = 2 then 9 else 6, 4, 0⟩
  | 0x34 => ⟨false, whenOn (bit x 57) (fld x 56 52), whenOn (!bit x 57) (fld x 56 52), 1, 2, 1, 0⟩
  | _ => ⟨true, [], [], 1, 1, 0, 0⟩

/-- Is the instruction's pipe free, and one cycle past the last acceptance? (R138) -/
def Wk.pipeFree (w : Wk) (t : VeTiming) : Bool :=
  decide (w.c.ve.next ≤ w.env.cyc) && decide ((if t.ls then w.c.ve.lsFree else w.c.ve.arFree) ≤ w.env.cyc)

/-- Do the registers it reads satisfy their producers' distances, and has every earlier read and write of those it writes been made?
(R138) [DEDUCED, log 28] -/
def Wk.pipeReady (w : Wk) (t : VeTiming) : Bool :=
  t.reads.all (fun r => decide (tget 0 w.c.ve.ready r ≤ w.env.cyc)) &&
    t.writes.all (fun r => decide (tget 0 w.c.ve.readEnd r ≤ w.env.cyc) && decide (tget 0 w.c.ve.writeEnd r ≤ w.env.cyc))

/-- An instruction accepted by its pipe in this cycle (R138, R139, R178). [DESIGN CHOICE, log 26] [DEDUCED, log 28] -/
def Wk.pipeTake (w : Wk) (e : QEntry) (t : VeTiming) : Wk :=
  let cyc := w.env.cyc
  let done := cyc + max t.occ (t.dist + t.writing)
  w.onCore (fun c =>
    let v := c.ve
    let v := { v with next := cyc + 1 }
    let v := if t.ls then { v with lsFree := cyc + t.occ, lsDone := max v.lsDone done } else { v with arFree := cyc + t.occ, arDone := max v.arDone done }
    let v := { v with readEnd := t.reads.foldl (fun y r => tset 0 y r (max (tget 0 y r) (cyc + t.reading))) v.readEnd }
    let v := { v with ready := t.writes.foldl (fun y r => tset 0 y r (cyc + t.dist)) v.ready
                      writeEnd := t.writes.foldl (fun y r => tset 0 y r (cyc + t.dist + t.writing)) v.writeEnd
                      sDone := (writesOf e.word).foldl (fun y r => tset 0 y (16 * e.ctx + r) (cyc + t.dist)) v.sDone }
    { c with ve := v
             sOld := (writesOf e.word).foldl (fun y r => tset (0, 0) y (16 * e.ctx + r) (cyc + t.dist, (tget (0, 0) y (16 * e.ctx + r)).2)) c.sOld })

/-- The cycle in which the work that queue `q`'s engine has accepted completes (R109, R110, R139, R176). -/
def Core.queueDone (c : Core) (q : Nat) : Nat :=
  if q = 1 then (c.mx.blkFree.filter (fun e => decide (e.1 < 16))).foldl (fun a e => max a e.2) (tget 0 c.mx.drained 0)
  else if q = 2 then (c.mx.blkFree.filter (fun e => decide (16 ≤ e.1))).foldl (fun a e => max a e.2) (tget 0 c.mx.drained 1)
  else if q = 3 then max c.ve.arDone c.ve.lsDone
  else 0

/-! ### Start grants and ballast (R395, R396) -/

/-- An engine and its cell, as it stands in cycle `cyc`: a vector engine or DMA agent 64 cycles after its last acceptance,
with no work, is idle with its cell engaged (R395). -/
def Core.engine (c : Core) (cyc u : Nat) : Ballast :=
  match tget Ballast.released c.ballast u with
  | .active last =>
    if u = 0 ∨ u = 1 then .active last
    else if (u = 3 ∧ c.dmaBusy = true) ∨ cyc < last + 64 then .active last
    else .engaged (last + 64)
  | b => b

/-- An engine's cell set. -/
def Wk.setEngine (w : Wk) (u : Nat) (b : Ballast) : Wk := w.onCore (fun c => { c with ballast := tset .released c.ballast u b })

/-- Does the core hold the engine's grant, or its cell still engaged? (R396) -/
def Wk.mayStart (w : Wk) (u : Nat) : Bool :=
  match w.c.engine w.env.cyc u with
  | .active _ => true
  | .engaged _ => true
  | _ => false

/-- The engine asks for a start grant (R396). [DESIGN CHOICE, log 44] -/
def Wk.askGrant (w : Wk) (u : Nat) : Wk :=
  match w.c.engine w.env.cyc u with
  | .released => w.setEngine u .waiting
  | _ => w

/-! ### Refusal (R179, R550) -/

/-- The refusal recorded in the engine's own error register (R118, R142, R179, R238, R267, R288). [DEDUCED, log 38] -/
def Wk.engineErr (w : Wk) (x : BitVec 64) (st : Status) : Wk :=
  let op := opc x
  if 0x20 ≤ op ∧ op < 0x30 then w.recErr 0x71C 0 st
  else if 0x30 ≤ op then w.recErr 0x818 0 st
  else if st = St.UNIT_DISABLED ∨ st = St.HND_INVALID ∨ st = St.HND_RO ∨ st = St.MEM_RANGE then
    if 0x1C ≤ op then w.strmErr (fld x 57 54) false st
    else if 0x18 ≤ op then w.dmaErr (if op = 0x19 then dCh (w.c.desc (w.c.active.getD 0) (fld x 57 54)) else 0) st
    else if 0x10 ≤ op then w.semErr 0 st
    else w
  else w

/-- A context becomes FAULTED with a status: recorded with its word address and queue, later work that no engine has accepted
discarded, a switch that waited for its block drained, the span marked dirty and the fault reported, its objects orphaned (R179, R191, R285).
[DEDUCED, log 40] -/
def Wk.faultCtx (w : Wk) (ctx q pc serial : Nat) (st : Status) : Wk :=
  let w := (w.seqErr ctx st).setReg 0x008 (BitVec.ofNat 32 (put q 12 + pc % 4096))
  let w := if st = St.HND_INVALID ∨ st = St.HND_RO ∨ st = St.MEM_RANGE then w.memErr st else w
  let w := w.modCtx ctx (fun x => { x with state := .faulted, inblk := false, stopping := false, loops := [], fbPend := [] })
  let w := iter 6 (fun q w => w.setQueue q ((w.c.queue q).filter (fun e => e.ctx != ctx || e.started || decide (e.serial < serial)))) w
  let w := w.onCore (fun c => { c with sync0 := c.sync0.filter (fun e => e.ctx != ctx || decide (e.serial < serial)) })
  let w := w.onCore (fun c => { c with sw := c.sw.map (fun s => if s.old = ctx then { s with draining := true } else s) })
  (w.spanFault st ctx).orphanCtx ctx

/-- An instruction refused at the head of queue `q`: it leaves the queue and its context becomes FAULTED (R179). -/
def Wk.refuseHead (w : Wk) (e : QEntry) (q : Nat) (st : Status) : Wk :=
  let w := if q = 0 then w.onCore (fun c => { c with sync0 := none }) else w.popQueue q
  (w.engineErr e.word st).faultCtx e.ctx q e.pc (e.serial + 1) st

/-! ### Acceptance of operations (R97, R107, R109, R110, R114) -/

/-- The operations of an engine's queue are ready: the ramp of unit `u` sees one in this cycle (R114, R396). -/
def Wk.rampReady (w : Wk) (u : Nat) : Wk :=
  (w.setEngine u (.active w.env.cyc)).onMx (fun m => m.setRamp u ((m.ramp u).onReady w.env.cyc))

/-- The unit of an operation: the matrix unit (0) or the vector path (1), to which a YB block belongs. -/
def opUnit (x : BitVec 64) : Nat := if opBlock x 0 < 16 then 0 else 1

/-- The cycle from which the array (0) or the path (1) is free (R110). -/
def Matrix.unitFree (m : Matrix) (u : Nat) : Nat := if u = 0 then m.arrFree else m.pathFree

/-- The array or the path taken until a cycle. -/
def Matrix.setFree (m : Matrix) (u n : Nat) : Matrix := if u = 0 then { m with arrFree := n } else { m with pathFree := n }

/-- The port accesses that an accepted instruction has added become those of a requester. -/
def Wk.tagAsks (w : Wk) (before : List PortReq) (tag : Nat) : Wk :=
  w.onCore (fun c => { c with ports := before ++ (c.ports.drop before.length).map (fun x => { x with tag := tag }) })

/-- One operation of the instruction at the head of queue 1 or 2, accepted when its block is free, its unit has its grant
and its ramp allows this cycle; refused operations are refused whatever those say (R97, R109, R110, R114).
[DESIGN CHOICE, log 26] -/
def Wk.acceptOp (w : Wk) (e : QEntry) : Eng :=
  let u := opUnit e.word
  match w.runOp e with
  | .refuse w st => .refuse w st
  | .wait w => .wait w
  | .done w2 =>
    let cyc := w.env.cyc
    let blk := opBlock e.word e.done
    if cyc < tget 0 w.c.mx.blkFree blk then .wait w
    else if !w.mayStart u then .wait (w.askGrant u)
    else if cyc < w.c.mx.unitFree u then .wait w
    else
      let wr := w.rampReady u
      let r := wr.c.mx.ramp u
      if !rampAllows r.level ((cyc - r.start) % 4) then .wait wr
      else
        let t := opTiming w e (w2.c.ports.drop w.c.ports.length)
        let w3 := ((w2.setEngine u (.active cyc)).tagAsks w.c.ports (64 + blk)).onMx (fun m =>
          let m := m.setRamp u r
          { m with blkFree := tset 0 m.blkFree blk (cyc + t.1) }.setFree u (cyc + t.2))
        .done (w3.bump (if opc e.word = 0x2A then 0x718 else 0x704) 1)

/-- The instruction at the head of queue 1 or 2 after one of its operations has been accepted (R97, R107). -/
def Wk.afterOp (w : Wk) (e : QEntry) (q : Nat) : Wk :=
  if opCount e.word ≤ e.done + 1 then w.popQueue q else w.modHead q (fun e => { e with done := e.done + 1 })

/-- One array operation of an MXM at the head of the matrix queue (R109). -/
def Wk.arrayOperation (w : Wk) : Wk :=
  match (w.c.queue 1).head? with
  | none => w
  | some e =>
    if opc e.word = 0x20 ∧ e.started then
      match w.acceptOp e with
      | .done w => w.afterOp e 1
      | .wait w => w
      | .refuse w st => w.refuseHead e 1 st
    else w

/-- An MXD at the head of its queue: it waits for an earlier operation on its block to write, reads the block in one cycle, and
writes it a line a cycle after a copy of 1 cycle or a conversion of 3 (R103, R110). -/
def Wk.drain (w : Wk) (e : QEntry) : Eng :=
  let blk := opBlock e.word 0
  let u := opUnit e.word
  if w.env.cyc < tget 0 w.c.mx.blkFree blk then .wait w
  else
    match w.opMxd e with
    | .done w2 =>
      let lines := w2.c.ports.length - w.c.ports.length
      .done ((w2.tagAsks w.c.ports (5 + u)).onMx (fun m =>
        { m with blkFree := tset 0 m.blkFree blk (w.env.cyc + 1)
                 drained := tset 0 m.drained u (w.env.cyc + (if bit e.word 27 then 3 else 1) + lines) }))
    | r => r

/-- A matrix-class or vector-path instruction that is not an array operation, at the head of its queue (R87).
[DEDUCED, log 24] [DEDUCED, log 25] -/
def Wk.runMatrix (w : Wk) (e : QEntry) : Eng :=
  match opc e.word with
  | 0x21 => w.opMxcfg e
  | 0x22 => w.opMxb e
  | 0x23 => w.opMxsc e
  | 0x25 => w.drain e
  | 0x28 => w.opMvx e
  | _ => w.opMvcfg e

/-- A vector-class instruction at the head of its queue (R121, R138). -/
def Wk.runVector (w : Wk) (e : QEntry) : Eng :=
  match opc e.word with
  | 0x30 => w.opVop e
  | 0x31 => w.opVld e
  | 0x32 => w.opVst e
  | 0x33 => w.opVred e
  | 0x34 => w.opVms e
  | _ => w.opVamx e

/-- An engine that needs its start grant: the instruction waits for it, and an accepted one keeps the engine active (R395, R396).
[DESIGN CHOICE, log 44] -/
def Wk.underGrant (w : Wk) (u : Nat) (r : Wk → Eng) : Eng :=
  if w.mayStart u then
    match r w with
    | .done w2 => .done (w2.setEngine u (.active w.env.cyc))
    | x => x
  else .wait (w.askGrant u)

/-- The instruction at the head of queue `q`, 1 to 5, attempted once (R175, R176, R178). [DESIGN CHOICE, log 26] -/
def Wk.attempt (w : Wk) (e : QEntry) (q : Nat) : Eng :=
  let op := opc e.word
  if !e.hasRead && w.c.pendingWrite w.env.cyc e.ctx (readsOf e.word ++ writesOf e.word) e.serial then .wait w
  else if 0x10 ≤ op ∧ op < 0x18 then
    if (q = 4 ∧ w.c.dmaBusy) ∨ (e.headAt = none ∧ w.env.cyc < w.c.queueDone q) then .wait w else w.runSync e q
  else if op = 0x20 then
    .wait (if e.started then w else w.modHead q (fun e => { e with started := true, addr := w.expandAddr e }))
  else if op = 0x2A then
    if e.started then w.acceptOp e
    else w.acceptOp { e with started := true, addr := w.expandAddr e }
  else if op = 0x24 ∨ op = 0x26 then w.acceptOp e
  else if op < 0x18 then .wait w
  else if op < 0x1C then w.underGrant 3 (fun w => w.runDma e)
  else if op < 0x20 then w.runStream e
  else if op < 0x30 then w.runMatrix e
  else
    let t := w.veTiming e
    if w.pipeFree t = false then .wait w
    else w.underGrant 2 (fun w =>
      match w.runVector e with
      | .done w2 =>
        if w.pipeReady t then
          .done (((w2.bump 0x804 1).pipeTake e t).onCore (fun c => { c with ports := w.c.ports ++ (if op = 0x31 ∨ op = 0x32 then w.vecAsks e else []) }))
        else .wait w
      | r => r)

/-- The head of queue `q` attempted, and whether it left the queue or moved on. -/
def Wk.pumpQueue (q : Nat) (x : Wk × Bool) : Wk × Bool :=
  match (x.1.c.queue q).head? with
  | none => x
  | some e =>
    match x.1.attempt e q with
    | .done w =>
      if opc e.word = 0x2A then
        ((w.modHead q (fun f => { f with started := true, addr := if e.started then e.addr else x.1.expandAddr e })).afterOp e q, true)
      else (w.popQueue q, true)
    | .wait w => (w, x.2)
    | .refuse w st => (w.refuseHead e q st, true)

/-- A synchronisation instruction that the sequencer itself executes (R176). -/
def Wk.pumpSync0 (x : Wk × Bool) : Wk × Bool :=
  match x.1.c.sync0 with
  | none => x
  | some e =>
    match x.1.runSync e 0 with
    | .done w => (w.onCore (fun c => { c with sync0 := none }), true)
    | .wait w => (w, x.2)
    | .refuse w st => (w.refuseHead e 0 st, true)

/-- Every queue's head once, in ascending queue code (R276 step 1). -/
def Wk.pumpOnce (w : Wk) : Wk × Bool :=
  let x := (w, false)
  let x := Wk.pumpSync0 x
  let x := Wk.pumpQueue 1 x
  let x := Wk.pumpQueue 2 x
  let x := Wk.pumpQueue 3 x
  let x := Wk.pumpQueue 4 x
  Wk.pumpQueue 5 x

/-- Rounds of the queues until nothing moves; each round that moves takes an instruction or an operation away. -/
def Wk.pumpLoop : Nat → Wk → Wk
  | 0, w => w
  | n + 1, w =>
    match w.pumpOnce with
    | (w, true) => Wk.pumpLoop n w
    | (w, false) => w

/-- The operations still to run in the queues. -/
def Core.workLeft (c : Core) : Nat := (c.waiting.map (fun e => opCount e.word)).foldl (· + ·) 2

/-- The engines run on as far as they can in this cycle: a transfer that waited on a bank is formed, then the queue heads. -/
def Wk.pump (w : Wk) : Wk :=
  let w := iter 4 (fun ch w => w.formRun ch) w
  Wk.pumpLoop w.c.workLeft w

/-! ### The activity ramp (R114) -/

/-- Is an operation at the head of unit `u`'s queue ready in this cycle: it will not be refused, and every condition of acceptance but the ramp
holds (R114)? -/
def Wk.opReady (w : Wk) (u : Nat) : Bool :=
  match (w.c.queue (u + 1)).head? with
  | none => false
  | some e =>
    let e := if opc e.word = 0x2A ∧ e.started = false then { e with started := true, addr := w.expandAddr e } else e
    isArrayOp e.word && (e.started || opc e.word != 0x20) && decide (w.c.mx.unitFree u ≤ w.env.cyc) &&
      decide (tget 0 w.c.mx.blkFree (opBlock e.word e.done) ≤ w.env.cyc) && w.mayStart u &&
      (e.hasRead || !w.c.pendingWrite w.env.cyc e.ctx (readsOf e.word ++ writesOf e.word) e.serial) &&
      (match w.runOp e with | .done _ => true | _ => false)

/-- The end of an 8-cycle period of unit `u`'s ramp: the level moves by one, and at level 0 the unit is idle with its cell
engaged (R114, R395). Nothing happens before the period has run. -/
def Wk.rampPeriodEnd (w : Wk) (u : Nat) : Wk :=
  let r := w.c.mx.ramp u
  if r.level = 0 ∨ w.env.cyc < r.start + 8 then w
  else
    let r := if w.opReady u then { r with ready := true } else r
    let n := r.periodEnd
    let w := w.onMx (fun m => m.setRamp u n)
    if n.level = 0 then w.setEngine u (.engaged w.env.cyc) else w

/-- What one cycle costs the vector engine: its head waits on a distance or a register interlock (R142). -/
def Wk.countDeps (w : Wk) : Wk :=
  match (w.c.queue 3).head? with
  | none => w
  | some e =>
    if opc e.word < 0x30 then w
    else
      let t := w.veTiming e
      if decide (w.c.ve.next ≤ w.env.cyc) && (w.c.pendingWrite w.env.cyc e.ctx (readsOf e.word ++ writesOf e.word) e.serial || !w.pipeReady t) then w.bump 0x808 1
      else w

/-- Does the ramp of unit `u` allow no slot in this cycle? (R114) -/
def Wk.rampHolds (w : Wk) (u : Nat) : Bool :=
  let r := w.c.mx.ramp u
  !rampAllows r.level ((w.env.cyc - r.start) % 4)

/-- What one cycle costs a core's matrix unit and vector path in stalls: the matrix queue's head waits on its block in HAZ_STALL, an operation
of either queue that is ready waits on its ramp in RAMP_STALL; an operation that is ready is seen by its ramp (R110, R114, R118). -/
def Wk.countStalls (w : Wk) : Wk :=
  let haz := match (w.c.queue 1).head? with
    | none => false
    | some e => (isArrayOp e.word && (e.started || opc e.word != 0x20) || opc e.word == 0x25) && decide (w.c.mx.arrFree ≤ w.env.cyc) &&
        decide (w.env.cyc < tget 0 w.c.mx.blkFree (opBlock e.word e.done))
  let w := if haz then w.bump 0x710 1 else w
  let r0 := w.opReady 0
  let r1 := w.opReady 1
  let w := if r0 then w.rampReady 0 else w
  let w := if r1 then w.rampReady 1 else w
  if (r0 && w.rampHolds 0) || (r1 && w.rampHolds 1) then w.bump 0x714 1 else w

/-! ### What the ports cost (R110, R118, R140, R142, R148, R262, R267) -/

/-- A cycle put off by one, when it is still to come. -/
def later (cyc n : Nat) : Nat := if cyc < n then n + 1 else n

/-- A requester of `p` whose oldest access asked in this cycle and is still not served. -/
def Wk.heldUp (w : Wk) (before : List PortReq) (p : Nat → Bool) : Option Nat :=
  match before.find? (fun x => p x.tag && decide (x.from_ ≤ w.env.cyc)) with
  | none => none
  | some x => if (before.filter (fun y => y.tag == x.tag)).length = (w.c.ports.filter (fun y => y.tag == x.tag)).length then some x.tag else none

/-- A VLD or VST that the vector port has held up for a cycle: counted, and it and what depends on it come a cycle later (R140, R142). -/
def Wk.holdVector (w : Wk) (tag : Nat) : Wk :=
  let cyc := w.env.cyc
  (w.bump 0x80C 1).onCore (fun c =>
    let v := c.ve
    let v := { v with lsFree := later cyc v.lsFree, lsDone := later cyc v.lsDone }
    if tag < 32 then { c with ve := v }
    else
      let r := tag - 32
      { c with ve := { v with ready := tset 0 v.ready r (later cyc (tget 0 v.ready r))
                              writeEnd := tset 0 v.writeEnd r (later cyc (tget 0 v.writeEnd r)) } })

/-- A matrix operation or a drain that its port has held up for a cycle comes a cycle later (R110, R112). -/
def Wk.holdMatrix (w : Wk) (tag : Nat) : Wk :=
  let cyc := w.env.cyc
  w.onMx (fun m =>
    if tag < 64 then { m with drained := tset 0 m.drained (tag - 5) (later cyc (tget 0 m.drained (tag - 5))) }
    else
      let u := if tag < 80 then 0 else 1
      { m with blkFree := tset 0 m.blkFree (tag - 64) (later cyc (tget 0 m.blkFree (tag - 64))) }.setFree u (later cyc (m.unitFree u)))

/-- One cycle of the banks of the three memories, and what it costs the engines that wait for a port or a bank (R140, R148, R262, R267).
[DESIGN CHOICE, log 116] -/
def Wk.arbitrate (w : Wk) : Wk :=
  let before := w.c.ports
  let w := if before.isEmpty then w else iter 3 (fun m w => w.arbitrateMem m) w
  let waits (ch : Nat) : Bool := match (w.c.chan ch).run with
    | some r => r.due && w.formWaits r
    | none => false
  let w := if (w.heldUp before (fun t => decide (1 ≤ t) && decide (t ≤ 4))).isSome || (List.range 4).any waits then w.bump 0x604C 1 else w
  let w := match w.heldUp before (fun t => t == 16 || (decide (32 ≤ t) && decide (t < 64))) with
    | some t => w.holdVector t
    | none => w
  let w := match w.heldUp before (fun t => t == 5 || decide (64 ≤ t) && decide (t < 80)) with
    | some t => w.holdMatrix t
    | none => w
  match w.heldUp before (fun t => t == 6 || decide (80 ≤ t)) with
  | some t => w.holdMatrix t
  | none => w

end Sys2Proof.Machine
end

