-- ==== Sys2Proof/Machine/Sequencer.lean ====
section
/-! DEFINITION. The core sequencer: fetch, decode, issue, loops, branches, shapes and firing blocks (R170 to R198, R551, R506, R507). -/

namespace Sys2Proof.Machine

/-! ### Decode (R173, R176, R185, R485) -/

/-- Is this opcode reserved? (R87, R121, R180, R216, R241, R272) -/
def opReserved (op : Nat) : Bool :=
  op == 0x04 || op == 0x0C || op == 0x0E || op == 0x0F || op == 0x16 || op == 0x17 || op == 0x1A || op == 0x1B || op == 0x1F ||
    op == 0x27 || (decide (0x2B ≤ op) && decide (op ≤ 0x2F)) || decide (0x36 ≤ op)

/-- Does a field of the instruction hold a reserved value that decode refuses with SEQ_FN? (R173, R272)
[DESIGN CHOICE, log 137] -/
def fieldReserved (x : BitVec 64) : Bool :=
  match opc x with
  | 0x02 => decide (0x11 ≤ fld x 57 53)
  | 0x03 => decide (0x11 ≤ fld x 57 53)
  | 0x07 => fld x 57 55 == 7
  | 0x09 => fld x 57 56 == 3
  | 0x0B => decide (8 ≤ fld x 53 50)
  | 0x10 => decide (6 ≤ fld x 57 55) || fld x 54 53 == 3
  | 0x11 => decide (6 ≤ fld x 57 55) || fld x 54 53 == 3 || (bit x 12 && bit x 11)
  | 0x12 => decide (6 ≤ fld x 57 55)
  | 0x13 => decide (6 ≤ fld x 57 55) || fld x 54 53 == 3
  | 0x14 => decide (6 ≤ fld x 57 55)
  | 0x15 => decide (6 ≤ fld x 57 55)
  | 0x20 => fld x 52 51 == 0 || decide (16 < fld x 48 44)
  | _ => false

/-- Does an Annex core refuse the instruction with ANNEX_OP? (R485) -/
def annexRefuses (x : BitVec 64) : Bool :=
  match opc x with
  | 0x26 => true
  | 0x28 => true
  | 0x29 => true
  | 0x2A => true
  | 0x23 => true
  | 0x24 => bit x 53
  | 0x25 => bit x 53
  | 0x21 =>
    match decodeMxCfg x with
    | .inl c => c.amx || c.bmx || c.apts || c.bpts || [ElemType.e2m1, .int4, .uint4, .fp32].any (fun t => t == c.a || t == c.b)
    | .inr _ => false
  | _ => false

/-- The queue an instruction goes to, 0 for the sequencer (R87, R121, R173, R176). -/
def queueOf (x : BitVec 64) : Nat :=
  let op := opc x
  if op < 0x10 then 0
  else if op < 0x18 then fld x 57 55
  else if op < 0x1C then 4
  else if op < 0x20 then 5
  else if op = 0x23 then (if 2 ≤ fld x 57 56 then 2 else 1)
  else if op = 0x24 ∨ op = 0x25 then (if bit x 53 then 2 else 1)
  else if op = 0x28 ∨ op = 0x29 ∨ op = 0x2A then 2
  else if op < 0x30 then 1
  else 3

/-- First and last word of a context's instruction range (R202). -/
def Core.irange (c : Core) (ctx : Nat) : Nat × Nat :=
  let r := c.reg (0x108 + 0x20 * ctx)
  (fld r 11 0, fld r 27 16)

/-- Does a word address lie in a context's instruction range? (R193) -/
def Core.inRange (c : Core) (ctx : Nat) (pc : Int) : Bool :=
  let r := c.irange ctx
  decide ((r.1 : Int) ≤ pc) && decide (pc ≤ r.2)

/-- A word of the instruction store. [DESIGN CHOICE, log 10] -/
def Core.iword (c : Core) (pc : Nat) : BitVec 64 := tget 0 c.istore (pc % 4096)

/-- Does a unit accept no issue in cycle `cyc`: draining or disabled, or enabled again in this very cycle? (R199, R201) -/
def Core.unitOff (c : Core) (cyc u : Nat) : Bool := c.unit u != 0 || decide (cyc < tget 0 c.reen u)

/-- The status with which decode refuses an instruction at `pc`, if any (R173, R185, R199, R485).
[DESIGN CHOICE, log 35] [DEDUCED, log 37] -/
def Core.decodeBad (c : Core) (cyc ctx pc : Nat) (x : BitVec 64) : Option Status :=
  let op := opc x
  if opReserved op then some St.SEQ_OP
  else if fieldReserved x then some St.SEQ_FN
  else if c.annex && annexRefuses x then some St.ANNEX_OP
  else if queueOf x ≠ 0 ∧ c.unitOff cyc (unitOfQueue (queueOf x)) then some St.UNIT_DISABLED
  else if op = 0x05 then
    let n := fld x 49 38
    let lps := (c.ctx ctx).loops
    if n = 0 ∨ lps.any (fun l => l.ln == fld x 57 55) then some St.SEQ_LOOP
    else if (match lps with | l :: _ => decide (l.last ≤ pc + n) | [] => false) then some St.SEQ_LOOP
    else if c.inRange ctx ((pc + n : Nat) : Int) then none else some St.SEQ_PC
  else if op = 0x06 then
    if bit x 57 && (c.ctx ctx).loops.any (fun l => l.ln == fld x 56 54) then some St.SEQ_LOOP else none
  else if op = 0x07 then
    if c.inRange ctx ((pc : Int) + sx (fld x 46 35) 12) then none else some St.SEQ_PC
  else none

/-! ### Issue (R174, R177, R178, R402) -/

/-- The context that can issue in this cycle: RUNNING, in a block, with no instruction of the sequencer still waiting, in a
cycle of issue that neither R186 nor the issue duty of R402 takes away. -/
def Wk.issuing (w : Wk) : Option Nat :=
  match w.c.active with
  | none => none
  | some k =>
    if (w.c.ctx k).state = .running ∧ (w.c.ctx k).inblk ∧ w.c.sync0 = none ∧ w.c.issueAt ≤ w.env.cyc ∧ w.env.cyc % 16 < w.env.duty then
      some k
    else none

/-- The scalar registers a sequencer instruction reads (R178). -/
def seqReads (x : BitVec 64) : List Nat :=
  match opc x with
  | 0x02 => [fld x 48 45, fld x 44 41]
  | 0x03 => [fld x 48 45]
  | 0x05 => whenOn (bit x 54) (fld x 53 50)
  | 0x06 => whenOn (bit x 57) (fld x 53 50)
  | 0x07 => [fld x 54 51, fld x 50 47]
  | 0x08 => if fld x 57 55 = 1 ∨ fld x 57 55 = 6 then [fld x 42 39] else []
  | 0x09 => [fld x 55 52]
  | 0x0A => whenOn (bit x 57) (fld x 56 53)
  | _ => []

/-- The scalar registers a sequencer instruction writes (R178). -/
def seqWrites (x : BitVec 64) : List Nat :=
  match opc x with
  | 0x02 => [fld x 52 49]
  | 0x03 => [fld x 52 49]
  | 0x06 => if bit x 57 then [] else [fld x 53 50]
  | 0x08 => if fld x 57 55 = 7 then [fld x 42 39] else []
  | 0x0A => if bit x 57 then [] else [fld x 56 53]
  | 0x0B => [fld x 57 54]
  | _ => []

/-- Does R178 hold the instruction back at issue? -/
def Core.scoreboard (c : Core) (cyc ctx : Nat) (x : BitVec 64) : Bool :=
  c.pendingRead ctx (seqWrites x ++ writesOf x) ||
    (queueOf x == 0 && c.pendingWrite cyc ctx (seqReads x ++ seqWrites x ++ readsOf x ++ writesOf x) c.serial)

/-- The predicate fields of an instruction: bit position of PSEL and of QSEL (R96, R103, R105, R107, R125, R129 to R131). -/
def predFields (x : BitVec 64) : Option (Nat × Nat) :=
  match opc x with
  | 0x20 => some (41, 38)
  | 0x25 => some (20, 17)
  | 0x26 => some (12, 9)
  | 0x2A => some (25, 25)
  | 0x30 => some (22, 19)
  | 0x31 => some (16, 13)
  | 0x32 => some (16, 13)
  | 0x33 => some (40, 37)
  | 0x34 => some (38, 35)
  | _ => none

/-- The entry an issued instruction makes in its queue, with its copies of R177. -/
def Core.entry (c : Core) (ctx pc : Nat) (x : BitVec 64) : QEntry :=
  let k := c.ctx ctx
  let f := predFields x
  { word := x, ctx := ctx, pc := pc, serial := c.serial
    p := match f with | some (p, _) => c.pred ctx false (fld x (p + 2) p) | none => 0xFFFF
    q := match f with | some (_, q) => c.pred ctx true (fld x (q + 2) q) | none => 0xFFFF
    sr := k.sr, sc := k.sc, sk := k.sk, headAt := none, started := false, addr := 0, done := 0 }

/-- After the word at `pc` has issued: the loop back-edge of the innermost loop that ends there (R184). [DEDUCED, log 36] -/
def Wk.backEdge (w : Wk) (ctx pc : Nat) : Wk :=
  match (w.c.ctx ctx).loops with
  | l :: ls =>
    if l.last = pc then
      let n := w.c.lreg ctx l.ln - 1
      let w := w.setL ctx l.ln n
      w.modCtx ctx (fun k => if n = 0 then { k with loops := ls, npc := pc + 1 } else { k with npc := l.first })
    else w.modCtx ctx (fun k => { k with npc := pc + 1 })
  | [] => w.modCtx ctx (fun k => { k with npc := pc + 1 })

/-- An instruction counted as issued: its address, the serial and the next cycle of issue (R174, R202). [DEDUCED, log 42] -/
def Wk.issued (w : Wk) (ctx pc lost : Nat) : Wk :=
  ((w.bump 0x010 1).modCtx ctx (fun k => { k with pc := pc })).onCore
    (fun c => { c with serial := c.serial + 1, issueAt := w.env.cyc + 1 + lost })

/-- A cycle in which issue stalls, counted (R174, R178). -/
def Wk.stall (w : Wk) (off : Nat) : Wk := (w.bump off 1).onCore (fun c => { c with issueAt := w.env.cyc + 1 })

/-- A refusal at decode recorded in the engine's error register where one exists: that of the class of a reserved opcode, and for a
synchronisation instruction to a disabled unit that of the queue (R118, R142, R179, R238, R267, R288). [DEDUCED, log 38] -/
def Wk.decodeErr (w : Wk) (x : BitVec 64) (st : Status) : Wk :=
  let op := opc x
  let unit (k : Nat) : Wk :=
    if k ≤ 2 then w.recErr 0x71C 0 st else if k = 3 then w.recErr 0x818 0 st else if k = 4 then w.dmaErr 0 st else w.strmErr 0 false st
  if opReserved op then
    if op < 0x10 then w
    else if op < 0x18 then w.semErr 0 st
    else if op < 0x1C then unit 4
    else if op < 0x20 then unit 5
    else if op < 0x30 then unit 1
    else unit 3
  else if st = St.UNIT_DISABLED ∧ 0x10 ≤ op ∧ op < 0x18 then unit (queueOf x)
  else w.engineErr x st

/-- The next word of the running block issued, when its opcode is `op` and it can issue in this cycle: decoded, refused or held
back, and otherwise handed to `run` (R173, R174, R178, R179). Nothing happens when no such word can issue.
[DESIGN CHOICE, log 6] [DEDUCED, log 37] [DEDUCED, log 38] -/
def Wk.issue (w : Wk) (op : Nat) (run : Wk → Nat → Nat → BitVec 64 → Wk) : Wk :=
  match w.issuing with
  | none => w
  | some ctx =>
    let pc := (w.c.ctx ctx).npc
    if !w.c.inRange ctx pc then w.faultCtx ctx 0 pc w.c.serial St.SEQ_PC
    else
      let x := w.c.iword pc
      if opc x ≠ op then w
      else match w.c.decodeBad w.env.cyc ctx pc x with
      | some st => (w.decodeErr x st).faultCtx ctx 0 pc w.c.serial st
      | none =>
        if w.c.scoreboard w.env.cyc ctx x then w.stall 0x018
        else if queueOf x ≠ 0 ∧ queueDepth (queueOf x) ≤ (w.c.queue (queueOf x)).length then w.stall 0x014
        else run w ctx pc x

/-- A fetched word with a reserved opcode is refused with SEQ_OP (R173, R179). -/
def Wk.issueReserved (w : Wk) : Wk :=
  match w.issuing with
  | none => w
  | some ctx =>
    let pc := (w.c.ctx ctx).npc
    if !w.c.inRange ctx pc then w.faultCtx ctx 0 pc w.c.serial St.SEQ_PC
    else if opReserved (opc (w.c.iword pc)) then (w.decodeErr (w.c.iword pc) St.SEQ_OP).faultCtx ctx 0 pc w.c.serial St.SEQ_OP
    else w

/-- An engine instruction put into its queue (R174, R177), or executed by the sequencer for queue code 0 (R176).
[DEDUCED, log 42] -/
def Wk.enqueue (w : Wk) (ctx pc : Nat) (x : BitVec 64) : Wk :=
  let e := w.c.entry ctx pc x
  let q := queueOf x
  let w := (w.issued ctx pc 0).backEdge ctx pc
  if q = 0 then w.onCore (fun c => { c with sync0 := some e })
  else w.setQueue q (w.c.queue q ++ [e])

/-- An engine instruction issued, and the engines run on (R174). -/
def Wk.issueEngine (w : Wk) (op : Nat) : Wk := (w.issue op Wk.enqueue).pump

/-! ### Sequencer instructions (R180 to R185, R192, R194, R195) -/

/-- A sequencer instruction that falls through to the next word. [DEDUCED, log 36] -/
def Wk.fallThrough (w : Wk) (ctx pc : Nat) (f : Wk → Wk) : Wk := ((f w).issued ctx pc 0).backEdge ctx pc

/-- The scalar functions (R181). -/
def salu (fn : Nat) (a b : Word) : Word :=
  match fn with
  | 0x00 => b
  | 0x01 => a + b
  | 0x02 => a - b
  | 0x03 => a * b
  | 0x04 => a &&& b
  | 0x05 => a ||| b
  | 0x06 => a ^^^ b
  | 0x07 => a <<< (fld b 4 0)
  | 0x08 => a >>> (fld b 4 0)
  | 0x09 => a.sshiftRight (fld b 4 0)
  | 0x0A => if a.toInt ≤ b.toInt then a else b
  | 0x0B => if a.toInt ≤ b.toInt then b else a
  | 0x0C => if a.toNat ≤ b.toNat then a else b
  | 0x0D => if a.toNat ≤ b.toNat then b else a
  | 0x0E => if a.toInt < b.toInt then 1 else 0
  | 0x0F => if a.toNat < b.toNat then 1 else 0
  | _ =>
    let m := if a.toInt ≤ b.toInt then a else b
    if m.toInt < 0 then 0 else m

/-- The branch conditions (R181). -/
def brcTaken (cond : Nat) (a b : Word) : Bool :=
  match cond with
  | 0 => a == b
  | 1 => a != b
  | 2 => decide (a.toInt < b.toInt)
  | 3 => decide (b.toInt ≤ a.toInt)
  | 4 => decide (a.toNat < b.toNat)
  | 5 => decide (b.toNat ≤ a.toNat)
  | _ => true

/-- The low `n` bits set, `n` a signed scalar held to 0 … `width` (R182, R195). -/
def lowMask (width : Nat) (v : Word) : Nat := 2 ^ (min width (max 0 v.toInt).toNat) - 1

/-- SALU (R181). -/
def Wk.seqSalu (w : Wk) (ctx pc : Nat) (x : BitVec 64) : Wk :=
  w.fallThrough ctx pc (fun w => w.setS ctx (fld x 52 49) (salu (fld x 57 53) (w.c.sreg ctx (fld x 48 45)) (w.c.sreg ctx (fld x 44 41))))

/-- SALI (R181). -/
def Wk.seqSali (w : Wk) (ctx pc : Nat) (x : BitVec 64) : Wk :=
  w.fallThrough ctx pc (fun w =>
    w.setS ctx (fld x 52 49) (salu (fld x 57 53) (w.c.sreg ctx (fld x 48 45)) (BitVec.ofNat 32 (fld x 44 13))))

/-- LOOP (R184, R186). [DESIGN CHOICE, log 35] -/
def Wk.seqLoop (w : Wk) (ctx pc : Nat) (x : BitVec 64) : Wk :=
  let n := fld x 49 38
  let count : Word := if bit x 54 then w.c.sreg ctx (fld x 53 50) else BitVec.ofNat 32 (fld x 37 6)
  let w := w.setL ctx (fld x 57 55) count
  if count = 0 then (w.issued ctx pc 2).modCtx ctx (fun k => { k with npc := pc + n + 1 })
  else (w.issued ctx pc 0).modCtx ctx (fun k => { k with npc := pc + 1, loops := ⟨fld x 57 55, pc + 1, pc + n⟩ :: k.loops })

/-- LCTL (R180). -/
def Wk.seqLctl (w : Wk) (ctx pc : Nat) (x : BitVec 64) : Wk :=
  w.fallThrough ctx pc (fun w =>
    if bit x 57 then w.setL ctx (fld x 56 54) (w.c.sreg ctx (fld x 53 50))
    else w.setS ctx (fld x 53 50) (w.c.lreg ctx (fld x 56 54)))

/-- BRC (R181, R184, R185, R186). -/
def Wk.seqBrc (w : Wk) (ctx pc : Nat) (x : BitVec 64) : Wk :=
  if brcTaken (fld x 57 55) (w.c.sreg ctx (fld x 54 51)) (w.c.sreg ctx (fld x 50 47)) then
    let t := ((pc : Int) + sx (fld x 46 35) 12).toNat
    (w.issued ctx pc 2).modCtx ctx (fun k => { k with npc := t, loops := k.loops.dropWhile (fun l => decide (t < l.first) || decide (l.last < t)) })
  else w.fallThrough ctx pc id

/-- PRED (R182). -/
def Wk.seqPred (w : Wk) (ctx pc : Nat) (x : BitVec 64) : Wk :=
  w.fallThrough ctx pc (fun w =>
    let a := w.c.pred ctx (bit x 50) (fld x 49 47)
    let b := w.c.pred ctx (bit x 46) (fld x 45 43)
    let s := w.c.sreg ctx (fld x 42 39)
    let set (v : BitVec 16) : Wk := w.setPred ctx (bit x 54) (fld x 53 51) v
    match fld x 57 55 with
    | 0 => set (BitVec.ofNat 16 (fld x 38 23))
    | 1 => set (BitVec.ofNat 16 (lowMask 16 s))
    | 2 => set (a &&& b)
    | 3 => set (a ||| b)
    | 4 => set (a ^^^ b)
    | 5 => set (a &&& ~~~b)
    | 6 => set (s.setWidth 16)
    | _ => w.setS ctx (fld x 42 39) (a.setWidth 32))

/-- SHAPE (R195). -/
def Wk.seqShape (w : Wk) (ctx pc : Nat) (x : BitVec 64) : Wk :=
  w.fallThrough ctx pc (fun w =>
    let s := w.c.sreg ctx (fld x 55 52)
    w.modCtx ctx (fun k =>
      match fld x 57 56 with
      | 0 => { k with sr := BitVec.ofNat 16 (lowMask 16 s) }
      | 1 => { k with sc := BitVec.ofNat 16 (lowMask 16 s) }
      | _ => { k with sk := BitVec.ofNat 8 (lowMask 8 s) }))

/-- SHP (R194). -/
def Wk.seqShp (w : Wk) (ctx pc : Nat) (x : BitVec 64) : Wk :=
  w.fallThrough ctx pc (fun w =>
    let slot := fld x 52 50
    let at_ := 0x200 + 0x40 * ctx + 8 * slot
    if bit x 57 then w.setReg at_ (w.c.sreg ctx (fld x 56 53))
    else
      let ext := w.reg at_
      let mx := w.reg (at_ + 4)
      let w := w.setS ctx (fld x 56 53) (if ext.toNat ≤ mx.toNat then ext else mx)
      if mx.toNat < ext.toNat then
        (w.modCtx ctx (fun k => { k with ovr := k.ovr ||| BitVec.ofNat 8 (2 ^ slot) })).seqErr ctx St.SHAPE_OVER
      else w)

/-- SRD (R183). -/
def Wk.seqSrd (w : Wk) (ctx pc : Nat) (x : BitVec 64) : Wk :=
  w.fallThrough ctx pc (fun w =>
    let v : Word := match fld x 53 50 with
      | 0 => BitVec.ofNat 32 (w.env.code.toNat / 64)
      | 1 => BitVec.ofNat 32 (w.env.code.toNat % 64)
      | 2 => BitVec.ofNat 32 ctx
      | 3 => BitVec.ofNat 32 w.env.width
      | 4 => w.env.ts.setWidth 32
      | 5 => (w.c.ctx ctx).tsHi
      | 6 => w.env.span
      | _ => BitVec.ofNat 32 (w.c.ctx ctx).blk
    let w := w.setS ctx (fld x 57 54) v
    let w := if fld x 53 50 = 4 then w.modCtx ctx (fun k => { k with tsHi := (w.env.ts >>> 32).setWidth 32 }) else w
    if fld x 53 50 = 4 ∨ fld x 53 50 = 5 then w.timeDep else w)

/-- A block ends: every active loop ends, a stop takes effect, a pending switch begins to drain, and a stepped block halts
(R184, R191, R192, R506, R507). -/
def Wk.endBlock (w : Wk) (ctx : Nat) (stop : Bool) : Wk :=
  let w := w.modCtx ctx (fun k => { k with inblk := false, loops := [], stopping := k.stopping || stop })
  let w := match w.c.sw with
    | some s =>
      if s.draining = false ∧ (w.c.ctx ctx).stopping = false then
        (w.modCtx ctx (fun k => { k with state := .draining })).onCore (fun c => { c with sw := some { s with draining := true } })
      else w
    | none => w
  if w.c.dbg.stepRun then
    (w.bump 0xF008 1).onCore (fun c => { c with dbg := { c.dbg with stepRun := false, halted := true, cause := 2, hctx := ctx } })
  else w

/-- END (R184, R191). -/
def Wk.seqEnd (w : Wk) (ctx pc : Nat) (x : BitVec 64) : Wk := (w.issued ctx pc 0).endBlock ctx (bit x 57)

/-- May the core switch to a context? (R192) -/
def Core.maySwitch (c : Core) (t : Nat) : Bool :=
  match (c.ctx t).state with
  | .ready => true
  | .stopped => true
  | _ => false

/-- CTXSW: the block ends and the switch drains; to a context that is neither READY nor STOPPED it records CTX_STATE and acts
as END (R192). -/
def Wk.seqCtxsw (w : Wk) (ctx pc : Nat) (x : BitVec 64) : Wk :=
  let t := fld x 57 56
  let w := w.issued ctx pc 0
  if w.c.maySwitch t then
    (w.onCore (fun c => { c with sw := some ⟨ctx, t, false, false, none⟩ })).endBlock ctx false
  else (w.seqErr ctx St.CTX_STATE).endBlock ctx false

/-! ### Firing blocks (R187 to R189, R506, R507, R551) -/

/-- A register of firing-block entry `b` of a context (R202). -/
def Core.fbReg (c : Core) (ctx b off : Nat) : Word := c.reg (0x2000 + 0x200 * ctx + 32 * b + off)

/-- The three terms of an entry. -/
def Core.fbTerms (c : Core) (ctx b : Nat) : List Word := [c.fbReg ctx b 4, c.fbReg ctx b 8, c.fbReg ctx b 12]

/-- Is an entry enabled? -/
def Core.fbOn (c : Core) (ctx b : Nat) : Bool := bit (c.fbReg ctx b 0) 31

/-- Does a guard term hold at the end of the cycle before? (R187, R188) -/
def Wk.termHolds (w : Wk) (ctx : Nat) (t : Word) : Bool :=
  let id := fld t 27 22
  let th := fld t 15 0
  match fld t 31 29 with
  | 1 => match w.c.semPhys ctx id with
    | some p => decide (th ≤ (w.c.sem p).grantable w.env.cyc)
    | none => false
  | 2 => decide (id < 16) && decide (th ≤ (w.c.ep id).before w.env.cyc)
  | 3 => decide (th ≤ (w.c.lreg ctx (id % 8)).toNat)
  | 4 => decide (th ≤ (w.c.sregBefore w.env.cyc ctx (id % 16)).toNat)
  | 5 => atOrAfter 32 (w.c.sregBefore w.env.cyc ctx (id % 16)).toNat (w.env.ts.toNat % 2 ^ 32)
  | _ => false

/-- Does an entry's guard hold? (R187) -/
def Wk.guardHolds (w : Wk) (ctx b : Nat) : Bool :=
  let ts := (w.c.fbTerms ctx b).filter (fun t => fld t 31 29 != 0)
  if ts.isEmpty then true
  else if bit (w.c.fbReg ctx b 0) 30 then ts.any (w.termHolds ctx) else ts.all (w.termHolds ctx)

/-- The fault of a term of an enabled entry, `seen` being the SEM identifiers of the entry's earlier terms (R551). -/
def Wk.termFault (w : Wk) (ctx : Nat) (seen : List Nat) (t : Word) : Option Status :=
  let id := fld t 27 22
  if 6 ≤ fld t 31 29 then some St.SEQ_FN
  else if fld t 31 29 = 1 then
    if seen.contains id then some St.SEQ_FN
    else match w.c.semPhys ctx id with
    | none => some St.SEM_UNMAPPED
    | some p =>
      if (w.c.sem p).orph then some St.ORPHANED
      else if w.c.annex ∧ 16383 < fld t 15 0 then some St.ANNEX_RANGE
      else none
  else none

/-- The first fault among an entry's terms, in the order T0, T1, T2 (R551). -/
def Wk.termsFault (w : Wk) (ctx : Nat) : List Nat → List Word → Option Status
  | _, [] => none
  | seen, t :: ts =>
    match w.termFault ctx seen t with
    | some st => some st
    | none => w.termsFault ctx (if fld t 31 29 = 1 then fld t 27 22 :: seen else seen) ts

/-- The fault of the lowest-numbered enabled entry that has one (R551). -/
def Wk.guardFault (w : Wk) (ctx : Nat) : Option Status :=
  (List.range 16).findSome? (fun b => if w.c.fbOn ctx b then w.termsFault ctx [] (w.c.fbTerms ctx b) else none)

/-- The SEM terms a firing consumes: all of them under COMB = 0, under COMB = 1 only the lowest-numbered term that holds (R188). -/
def Wk.consumed (w : Wk) (ctx b : Nat) : List Word :=
  let ts := w.c.fbTerms ctx b
  let cons (t : Word) : Bool := fld t 31 29 == 1 && bit t 28
  if bit (w.c.fbReg ctx b 0) 30 then
    match ts.find? (fun t => fld t 31 29 != 0 && w.termHolds ctx t) with
    | some t => if cons t then [t] else []
    | none => []
  else ts.filter cons

/-- A context's block `b` fires: its first word is fetched in the next cycle and issues in the cycle after; a first word outside
the range faults the context (R188). -/
def Wk.startBlock (w : Wk) (ctx b : Nat) : Wk :=
  let pc := fld (w.c.fbReg ctx b 0) 11 0
  let w := (w.modCtx ctx (fun k => { k with blk := b, inblk := true, npc := pc, loops := [], fbCnt := tset 0 k.fbCnt b 0 })).bump (0x114 + 0x20 * ctx) 1
  let w := w.onCore (fun c => { c with issueAt := w.env.cyc + 2, dbg := { c.dbg with stepRun := c.dbg.step, step := false, halted := c.dbg.halted && !c.dbg.step } })
  if w.c.inRange ctx pc then w else w.faultCtx ctx 0 pc w.c.serial St.SEQ_PC

/-- May the context evaluate its guards in this cycle: RUNNING, no block running, not stopping, not switching out, and not
halted unless one evaluation has been released (R188, R191, R192, R506, R507)? -/
def Wk.evaluating (w : Wk) : Option Nat :=
  match w.c.active with
  | none => none
  | some k =>
    let x := w.c.ctx k
    if x.state = .running ∧ x.inblk = false ∧ x.stopping = false ∧ w.c.sw = none ∧ w.c.sync0 = none ∧ w.c.issueAt ≤ w.env.cyc ∧ w.c.dbg.pend = false ∧
      (w.c.dbg.halted = false ∨ w.c.dbg.step) then some k else none

/-- One evaluation (R188, R189, R507, R551): a fault of R551, a waiting timeout firing, else the lowest-numbered enabled entry whose guard
holds, which a breakpoint holds back. -/
def Wk.fire (w : Wk) : Wk :=
  match w.evaluating with
  | none => w
  | some ctx =>
    match w.guardFault ctx with
    | some st => w.faultCtx ctx 0 (w.c.ctx ctx).pc w.c.serial st
    | none =>
      match (w.c.ctx ctx).fbPend with
      | b :: rest =>
        (w.modCtx ctx (fun k => { k with fbPend := rest, fbCnt := tset 0 k.fbCnt b 0 })).timeDep.startBlock ctx (fld (w.c.fbReg ctx b 0) 27 24)
      | [] =>
        match findIdxFrom (fun b => w.c.fbOn ctx b && w.guardHolds ctx b) 0 16 with
        | none => w
        | some b =>
          if bit (w.reg 0xF000) b ∧ w.c.dbg.step = false then
            w.onCore (fun c => { c with dbg := { c.dbg with halted := true, cause := 1, hctx := ctx, next := b } })
          else
            let w := (w.consumed ctx b).foldl (fun w t =>
              match w.c.semPhys ctx (fld t 27 22) with
              | some p => w.consume p (fld t 15 0)
              | none => w) w
            (if (w.c.fbTerms ctx b).any (fun t => fld t 31 29 == 5 && w.termHolds ctx t) then w.timeDep else w).startBlock ctx b

/-- One cycle of the unheld-guard counts of the RUNNING context (R189, R506): an entry that has reached its LIMIT holds. -/
def Wk.countGuards (w : Wk) : Wk :=
  match w.c.active with
  | none => w
  | some ctx =>
    if (w.c.ctx ctx).state ≠ .running ∨ w.c.dbg.halted then w
    else iter 16 (fun b w =>
      let lim := (w.c.fbReg ctx b 0x10).toNat
      let n := tget 0 (w.c.ctx ctx).fbCnt b
      if w.c.fbOn ctx b ∧ lim ≠ 0 ∧ n < lim ∧ w.guardHolds ctx b = false then
        w.modCtx ctx (fun k => { k with fbCnt := tset 0 k.fbCnt b (n + 1) })
      else w) w

/-- An entry's count has reached LIMIT: without TOEN the context faults and no waiting timeout firing takes place; with TOEN its
timeout firing waits its turn, in ascending order of the timed-out entry (R189). Nothing happens before the limit.
[DESIGN CHOICE, log 4] -/
def Wk.fbTimeout (w : Wk) (b : Nat) : Wk :=
  match w.c.active with
  | none => w
  | some ctx =>
    let lim := (w.c.fbReg ctx b 0x10).toNat
    let k := w.c.ctx ctx
    if k.state ≠ .running ∨ w.c.fbOn ctx b = false ∨ lim = 0 ∨ tget 0 k.fbCnt b < lim ∨ k.fbPend.contains b then w
    else if bit (w.c.fbReg ctx b 0) 29 then w.modCtx ctx (fun k => { k with fbPend := k.fbPend.filter (fun x => decide (x < b)) ++ [b] ++ k.fbPend.filter (fun x => decide (b < x)) })
    else w.faultCtx ctx 0 k.pc w.c.serial St.FB_TIMEOUT

/-! ### Contexts and switches (R190 to R193, R285, R506) -/

/-- A command of CORE_CTX_CTL refused: recorded with its context (R191, R550). -/
def Wk.ctxRefuse (w : Wk) (ctx : Nat) : Wk := w.seqErr ctx St.CTX_STATE

/-- A context started: masks all ones, OVER flags and timeout counts cleared; its endpoints no
longer discard, and a pending halt takes effect before its first evaluation (R191, R231, R506). [DESIGN CHOICE, log 47] -/
def Wk.startCtx (w : Wk) (ctx : Nat) : Wk :=
  let w := w.modCtx ctx (fun k => { k with state := .running, inblk := false, stopping := false, sr := 0xFFFF, sc := 0xFFFF, sk := 0xFF
                                           ovr := 0, loops := [], fbCnt := [], fbPend := [] })
  let w := iter 16 (fun e w => if w.c.epCtx e = ctx then w.modEp e (fun p => { p with starved := false }) else w) w
  w.onCore (fun c => { c with issueAt := w.env.cyc + 1 })

/-- LOADED (R191). -/
def Wk.ctxLoaded (w : Wk) (ctx : Nat) : Wk :=
  if (w.c.ctx ctx).state = .empty then w.modCtx ctx (fun k => { k with state := .ready }) else w.ctxRefuse ctx

/-- May a context be started: it is READY or STOPPED, none is RUNNING or DRAINING, and no switch is in progress? (R190, R191)
[DESIGN CHOICE, log 41] -/
def Core.mayStart (c : Core) (ctx : Nat) : Bool := c.maySwitch ctx && c.active == none && c.sw == none

/-- START (R191). -/
def Wk.ctxStart (w : Wk) (ctx : Nat) : Wk := if w.c.mayStart ctx then w.startCtx ctx else w.ctxRefuse ctx

/-- STOP (R191). -/
def Wk.ctxStop (w : Wk) (ctx : Nat) : Wk :=
  if (w.c.ctx ctx).state = .running then w.modCtx ctx (fun k => { k with stopping := true }) else w.ctxRefuse ctx

/-- A context's firing-block entries disabled, handles invalid and windows closed (R159, R191). -/
def Wk.emptyCtx (w : Wk) (ctx : Nat) : Wk :=
  let w := w.modCtx ctx (fun k => { k with state := .empty, stopping := false, inblk := false, loops := [] })
  let w := iter 16 (fun b w => w.setReg (0x2000 + 0x200 * ctx + 32 * b) (w.c.fbReg ctx b 0 &&& 0x7FFFFFFF)) w
  let w := iter 16 (fun h w => w.setReg (0x1000 + 0x80 * ctx + 8 * h) (w.reg (0x1000 + 0x80 * ctx + 8 * h) &&& 0x7FFFFFFF)) w
  iter 8 (fun k w => if fld (w.reg (0x1200 + 16 * k)) 26 25 = ctx then
    w.setReg (0x1200 + 16 * k) (w.reg (0x1200 + 16 * k) &&& 0x7FFFFFFF) else w) w

/-- CLEAR (R191, R285). -/
def Wk.ctxClear (w : Wk) (ctx : Nat) : Wk :=
  if w.c.ctxBusy ctx then w.ctxRefuse ctx else (w.emptyCtx ctx).orphanCtx ctx

/-- Does a pipeline hold an operation that has not completed by cycle `cyc`? (R110, R138, R192) -/
def Core.pipesBusy (c : Core) (cyc : Nat) : Bool :=
  c.mx.blkFree.any (fun x => decide (cyc < x.2)) || c.mx.drained.any (fun x => decide (cyc < x.2)) ||
    decide (cyc < c.ve.arDone) || decide (cyc < c.ve.lsDone)

/-- Does any queue, pipeline, channel, endpoint or steering unit hold work of a context? The pipelines are those of the one context that is at
work (R190, R191, R192). -/
def Core.holdsWork (c : Core) (cyc ctx : Nat) : Bool :=
  c.pipesBusy cyc || (List.range 2).any (fun u => !(c.steer u).out.isEmpty && c.epCtx (c.steer u).ep == ctx) ||
    (List.range 16).any (fun e => (c.ep e).cur.isSome && c.epCtx e == ctx) ||
    c.waiting.any (fun e => e.ctx == ctx) || (match c.sync0 with | some e => e.ctx == ctx | none => false) ||
    (List.range 4).any (fun ch => match (c.chan ch).run with | some r => r.ctx == ctx | none => false)

/-- A stopping context whose block has ended becomes STOPPED once no queue holds its work (R191). -/
def Wk.ctxStopped (w : Wk) (ctx : Nat) : Wk :=
  let k := w.c.ctx ctx
  if k.state = .running ∧ k.stopping ∧ k.inblk = false ∧ w.c.holdsWork w.env.cyc ctx = false then
    let w := w.modCtx ctx (fun k => { k with state := .stopped, stopping := false })
    match w.c.sw with
    | some s => if s.draining = false then w.onCore (fun c => { c with sw := none }) else w
    | none => w
  else w

/-- A GO write to CORE_SEQ_SWITCH: a pre-empting switch, which marks the span dirty (R192, R285). With no block running and no halt
it drains at once; a halted context's switch waits (R506). -/
def Wk.seqSwitch (w : Wk) (t : Nat) : Wk :=
  match w.c.active with
  | none => w.seqErr t St.CTX_STATE
  | some ctx =>
    if !w.c.maySwitch t || w.c.sw.isSome then w.seqErr t St.CTX_STATE
    else
      let inb := (w.c.ctx ctx).inblk || w.c.dbg.halted
      let w := (w.onCore (fun c => { c with sw := some ⟨ctx, t, true, !inb, none⟩ })).spanFault St.PREEMPTED ctx
      if inb then w else w.modCtx ctx (fun k => { k with state := .draining })

/-- The drain and the reconfiguration of a switch (R192 steps 2 to 4, R285): once the old context has drained, reconfiguration
starts; within 2,400 cycles the old context becomes READY and the target starts, or is refused where it may no longer start. `cycles` is how long
this one takes. [DEDUCED, log 40] [DESIGN CHOICE, log 41] -/
def Wk.switchDrained (w : Wk) (cycles : Nat) : Wk :=
  match w.c.sw with
  | none => w
  | some s =>
    if s.draining = false ∨ w.c.holdsWork w.env.cyc s.old then w
    else match s.reconf with
    | none => w.onCore (fun c => { c with sw := some { s with reconf := some w.env.cyc } })
    | some t0 =>
      if w.env.cyc < t0 + min cycles 2400 then w
      else
        let w := if s.preempt then w.orphanCtx s.old else w
        let w := (w.modCtx s.old (fun k => { k with state := if k.state = .draining then .ready else k.state })).onCore
          (fun c => { c with sw := none })
        if w.c.mayStart s.target then w.startCtx s.target else w.ctxRefuse s.target

/-! ### Units (R199 to R201) -/

/-- A drain-mode disable (R199, R201). -/
def Wk.unitDrain (w : Wk) (u : Nat) : Wk :=
  if w.c.unit u = 0 then w.onCore (fun c => { c with units := tset 0 c.units u 1 }) else w

/-- Does a unit hold work in its queue or pipeline? (R199) -/
def Core.unitBusy (c : Core) (cyc u : Nat) : Bool :=
  !(c.queue (u + 1)).isEmpty || decide (cyc < c.queueDone (u + 1)) || (u == 3 && c.dmaBusy) ||
    (u == 4 && (List.range 2).any (fun k => !(c.steer k).out.isEmpty))

/-- A draining unit with its queue and pipeline empty becomes DISABLED (R199). -/
def Wk.unitDrained (w : Wk) (u : Nat) : Wk :=
  if w.c.unit u = 1 ∧ w.c.unitBusy w.env.cyc u = false then w.onCore (fun c => { c with units := tset 0 c.units u 2 }) else w

/-- The blocks of a unit that an accepted operation has still to write (R110). [DEDUCED, log 43] -/
def Core.unwritten (c : Core) (cyc u : Nat) : List Nat :=
  (c.mx.blkFree.filter (fun e => decide (cyc < e.2) && decide (e.1 / 16 = u))).map (·.1)

/-- The blocks that the unaccepted operations of an expanded entry name, which a forced disable empties (R200).
[DEDUCED, log 43] -/
def forcedBlocks (e : QEntry) : List Nat :=
  if isArrayOp e.word && e.started then (List.range (opCount e.word - e.done)).map (fun i => opBlock e.word (e.done + i)) else []

/-- The port accesses of a unit's discarded work: of the matrix unit, the vector path, the vector engine, the DMA agent (R200). -/
def forcedTag (u tag : Nat) : Bool :=
  match u with
  | 0 => tag == 5 || (decide (64 ≤ tag) && decide (tag < 80))
  | 1 => tag == 6 || decide (80 ≤ tag)
  | 2 => tag == 16 || (decide (32 ≤ tag) && decide (tag < 64))
  | 3 => decide (1 ≤ tag) && decide (tag ≤ 4)
  | _ => false

/-- A forced disable: queued and unfinished work discarded, UNIT_FORCED recorded, the span dirty (R199, R200).
[DEDUCED, log 43] -/
def Wk.unitForce (w : Wk) (u : Nat) : Wk :=
  if w.c.unit u = 2 then w
  else
    let gone := (w.c.queue (u + 1)).flatMap forcedBlocks ++ w.c.unwritten w.env.cyc u
    let ctx := match (w.c.queue (u + 1)).head? with | some e => e.ctx | none => w.c.active.getD 0
    let w := match (w.c.queue (u + 1)).head? with
      | some e => if 0x10 ≤ opc e.word ∧ opc e.word < 0x18 then w.forget e (u + 1) else w
      | none => w
    let w := w.setQueue (u + 1) []
    let w := w.onCore (fun c => { c with ports := c.ports.filter (fun x => !forcedTag u x.tag) })
    let w := if u = 4 then iter 16 (fun e w => w.modEp e (fun p => if p.cur = some .ssend then { p with cur := none } else p)) w else w
    let w := gone.foldl (fun w b => w.setBlk b .empty) w
    let w := if u = 3 then iter 4 (fun ch w => w.modChan ch (fun k => { k with run := none })) w else w
    let w := w.onCore (fun c => { c with units := tset 0 c.units u 2 })
    (w.seqErr ctx St.UNIT_FORCED).spanFault St.UNIT_FORCED ctx

/-- A re-enable of a DISABLED unit, which accepts issue from the next cycle on (R201). -/
def Wk.unitReen (w : Wk) (u : Nat) : Wk :=
  if w.c.unit u = 2 then w.onCore (fun c => { c with units := tset 0 c.units u 0, reen := tset 0 c.reen u (w.env.cyc + 1) }) else w

/-! ### Debug (R506, R507) -/

/-- A halt requested, with its cause (R506, R508). -/
def Wk.dbgHalt (w : Wk) (cause : Nat) : Wk :=
  w.onCore (fun c => { c with dbg := { c.dbg with pend := !c.dbg.halted, pendCause := cause } })

/-- A pending halt takes effect when a context is RUNNING with no block running (R506). -/
def Wk.haltEffect (w : Wk) : Wk :=
  match w.c.active with
  | none => w
  | some ctx =>
    if w.c.dbg.pend ∧ (w.c.ctx ctx).state = .running ∧ (w.c.ctx ctx).inblk = false then
      w.onCore (fun c => { c with dbg := { c.dbg with pend := false, halted := true, cause := c.dbg.pendCause, hctx := ctx, step := false } })
    else w

/-- STEP (R507). -/
def Wk.dbgStep (w : Wk) : Wk :=
  if w.c.dbg.halted then w.onCore (fun c => { c with dbg := { c.dbg with step := true } })
  else w.seqErr (w.c.active.getD 0) St.CTX_STATE

/-- RESUME: evaluation goes on in the next cycle, and a switch that waited begins to drain (R506, R507). -/
def Wk.dbgResume (w : Wk) : Wk :=
  if w.c.dbg.halted then
    let w := w.onCore (fun c => { c with dbg := { c.dbg with halted := false, step := false, pend := false }, issueAt := max c.issueAt (w.env.cyc + 1) })
    match w.c.sw, w.c.active with
    | some s, some ctx =>
      if s.draining = false ∧ (w.c.ctx ctx).inblk = false then
        (w.modCtx ctx (fun k => { k with state := .draining })).onCore (fun c => { c with sw := some { s with draining := true } })
      else w
    | _, _ => w
  else w.seqErr (w.c.active.getD 0) St.CTX_STATE

end Sys2Proof.Machine
end

