-- ==== Sys2Proof/Machine/CoreRegs.lean ====
section
/-! DEFINITION. The registers of a core as Service reads and writes them, and the memory housekeeping of a core (R16, R64, R118, R142,
R159 to R169, R193, R202, R238, R244, R252, R254, R267 to R270, R288, R302 to R310, R379, R480, R491, R512, R550). -/

namespace Sys2Proof.Machine

/-! ### Banks (R160, R161) -/

/-- A bank's state set. -/
def Wk.setBank (w : Wk) (m b : Nat) (x : Bank) : Wk := w.onCore (fun c => { c with banks := tset .off c.banks (bankKey m b) x })

/-- The register that holds a memory's ON bits. -/
def pwrReg (m : Nat) : Nat := 0x908 + 4 * m

/-- The bank that wakes next: the one that has waited longest, then ascending memory and bank (R161). [DEDUCED, log 31] -/
def Core.nextWake (c : Core) : Option Nat :=
  let q := (List.range 48).filterMap (fun k => match c.bank (k / 16) (k % 16) with
    | .queued t => some (t, k)
    | _ => none)
  (q.foldl (fun (a : Option (Nat × Nat)) x => match a with
    | none => some x
    | some y => if x.1 < y.1 then some x else some y) none).map (·.2)

/-- Is a bank of the core waking? -/
def Core.wakingBank (c : Core) : Bool :=
  (List.range 48).any (fun k => match c.bank (k / 16) (k % 16) with
    | .waking _ => true
    | _ => false)

/-- The next bank begins to wake when none is waking: each core wakes one bank at a time (R161). [DEDUCED, log 31] -/
def Wk.startWake (w : Wk) : Wk :=
  if w.c.wakingBank then w
  else match w.c.nextWake with
  | some k => w.setBank (k / 16) (k % 16) (.waking w.env.cyc)
  | none => w

/-- What a bank's ON bit, as written, does to it (R161): a transition that has begun is never reversed. -/
def Bank.power (b : Bank) (on : Bool) (cyc : Nat) : Bank :=
  match b, on with
  | .off, true => .queued cyc
  | .stopping _, x => .stopping x
  | .queued _, false => .off
  | .on, false => .stopping false
  | .last _, true => .on
  | b, _ => b

/-- A write to CORE_MEM_PWR of memory `m` (R160, R161). -/
def Wk.bankPower (w : Wk) (m : Nat) (v : Word) : Wk :=
  let n := numBanks w.env.smallPantry m
  let w := w.setReg (pwrReg m) (BitVec.ofNat 32 (v.toNat % 2 ^ n))
  let w := iter n (fun b w => w.setBank m b ((w.c.bank m b).power (bit v b) w.env.cyc)) w
  w.startWake

/-- The contents of a bank's 128 rows and their error states taken away: every row reads zero with valid check symbols (R161). -/
def Wk.zeroBank (w : Wk) (m b : Nat) : Wk :=
  let lo := 0x20000 * m + 8192 * b
  w.onCore (fun c => { c with mem := tdrop c.mem (fun k => decide (lo ≤ k) && decide (k < lo + 8192))
                              werr := tdrop c.werr (fun k => decide (lo / 8 ≤ k) && decide (k < lo / 8 + 1024))
                              old := tdrop c.old (fun k => decide (lo / 8 ≤ k) && decide (k < lo / 8 + 1024)) })

/-- A waking bank after its 160 cycles: on with zeroed rows, and the next one begins; one whose bit is 0 by then serves what waits on
it before it switches off (R161). Nothing happens before. -/
def Wk.bankWakeDone (w : Wk) (m b : Nat) : Wk :=
  match w.c.bank m b with
  | .waking t =>
    if w.env.cyc < t + 160 then w
    else
      let w := ((w.zeroBank m b).setBank m b .on).pump
      (if bit (w.reg (pwrReg m)) b then w else w.setBank m b (.last w.env.cyc)).startWake
  | _ => w

/-- Has a bank an accepted access to complete: one that a port has asked for, or a remote one that waited for it to wake? (R161) -/
def Wk.bankInUse (w : Wk) (m b : Nat) : Bool :=
  w.c.ports.any (fun x => x.mem == m && x.bank == b) ||
    w.c.held.any (fun fs => match fs with
      | a :: _ => (match memOfWindow w.env.smallPantry (fld (a.word 1) 19 0) with
        | some (n, o) => n == m && (List.range (fld (a.word 0) 54 52 + 1)).any (fun i => w.bankAt m (o + 64 * i) == b)
        | none => false)
      | [] => false)

/-- A bank that has completed its accepted accesses is off and has lost its contents; it takes its place in the wake order when its
bit has been written 1 meanwhile (R160, R161). One that has woken with its bit 0 serves at least the rest of that cycle. Nothing happens
while an accepted access has still to be served. -/
def Wk.bankOffDone (w : Wk) (m b : Nat) : Wk :=
  if w.bankInUse m b then w
  else match w.c.bank m b with
  | .stopping again =>
    ((w.zeroBank m b).setBank m b (if again then .queued w.env.cyc else .off)).startWake
  | .last t => if w.env.cyc ≤ t then w else ((w.zeroBank m b).setBank m b .off).startWake
  | _ => w

/-! ### Errors and patrol (R163, R166) -/

/-- The write-back of a corrected codeword: key `k` is 0x20000 × memory + offset (R163). -/
def Wk.ceWriteBack (w : Wk) : Wk :=
  match w.c.ceWb with
  | [] => w
  | k :: ks =>
    let w := w.onCore (fun c => { c with ceWb := ks })
    let m := k / 0x20000
    let o := k % 0x20000
    match (w.werrAt m o).read with
    | .sym i e => (w.putWord m o (eccFix (w.rawWord m o) i e)).setWerr m o .clean
    | _ => w

/-- The first row at or after position `p` of a memory that lies in a bank that is on; positions run bank by bank, 128 rows each. -/
def Core.patrolNext (c : Core) (small : Bool) (m p : Nat) : Option Nat :=
  let n := numBanks small m
  (List.range (n + 1)).findSome? (fun i =>
    let b := (p / 128 + i) % n
    if (c.bank m b).serves then some (if i = 0 then p % (128 * n) else 128 * b) else none)

/-- One patrol read of memory `m`: one row, corrected and counted, when the interval of 2^(7 + n) cycles has passed (R166). -/
def Wk.patrolRead (w : Wk) (m : Nat) : Wk :=
  let n := fld (w.reg 0x900) 3 0
  let at_ := tget 0 w.c.patrolAt m
  if n = 0 ∨ w.env.cyc < at_ + 2 ^ (7 + n) then w
  else
    let w := w.onCore (fun c => { c with patrolAt := tset 0 c.patrolAt m w.env.cyc })
    match w.c.patrolNext w.env.smallPantry m (tget 0 w.c.patrolRow m) with
    | none => w
    | some p =>
      let o := lineOf w.c.annex w.env.smallPantry m (p / 128) (p % 128)
      let w := (w.noteRead m portPatrol 0 ((List.range 64).map (fun i => o + i))).1
      w.onCore (fun c => { c with patrolRow := tset 0 c.patrolRow m ((p + 1) % (128 * numBanks w.env.smallPantry m)) })

/-! ### Refused writes (R550) -/

/-- The semaphore or work counter that a register at block offset `off` concerns (R288). [DEDUCED, log 60] -/
def physOf (off : Nat) : Nat :=
  if 0xC400 ≤ off ∧ off < 0xD000 then (off - 0xC400) / 64
  else if 0xD100 ≤ off ∧ off < 0xD140 then (off - 0xD100) / 16
  else 0

/-- A configuration refusal recorded in the register R550 names for block offset `off`, with the context concerned; for a descriptor
slot also in DMA_DEF_STAT. -/
def Wk.refuseWrite (w : Wk) (off ctx : Nat) (st : Status) : Wk × Status :=
  let w :=
    if 0x4000 ≤ off ∧ off < 0x5000 then w.strmErr ((off - 0x4000) / 32 % 16) false st
    else if 0x8000 ≤ off ∧ off < 0xC000 then
      (w.defStat ((off - 0x8000) / 0x1000) ((off - 0x8000) / 256 % 16) st).dmaErr (dCh (w.c.desc ((off - 0x8000) / 0x1000) ((off - 0x8000) / 256 % 16))) st
    else if 0x6000 ≤ off ∧ off < 0x7000 then w.dmaErr 0 st
    else if 0xC000 ≤ off ∧ off < 0xE000 then w.semErr (physOf off) st
    else if (0x900 ≤ off ∧ off < 0xA00) ∨ (0x1000 ≤ off ∧ off < 0x1300) then w.memErr st
    else w.seqErr ctx st
  (w, st)

/-- A write that takes effect. -/
def Wk.ok (w : Wk) : Wk × Status := (w, St.OK)

/-- A register of the context `ctx` written under `mask` when the context is neither RUNNING nor DRAINING (R193). -/
def Wk.writeCtxReg (w : Wk) (ctx off : Nat) (mask v : Word) : Wk × Status :=
  if w.c.ctxBusy ctx then w.refuseWrite off ctx St.CTX_STATE
  else (w.setReg off (mergeMask (w.reg off) v mask)).ok

/-- A register written under `mask`. -/
def Wk.writePlain (w : Wk) (off : Nat) (mask v : Word) : Wk × Status := (w.setReg off (mergeMask (w.reg off) v mask)).ok

/-- An error or log register whose bit 31 is W1C (R16); a bit that an event of the same cycle has set stays (R17). -/
def Wk.writeW1c (w : Wk) (off : Nat) (v : Word) : Wk × Status :=
  (w.setReg off (w.reg off &&& ~~~(v &&& 0x80000000 &&& ~~~freshOf w.c.fresh w.env.cyc off))).ok

/-! ### Handles, windows and range entries -/

/-- Does a descriptor name a handle of its context? (R254) -/
def namesHandle (d : List Word) (h : Nat) : Bool :=
  let side (b : Nat) : Bool := !bit (dw d b) 31 && (fld (dw d b) 30 27 == h || fld (dw d b) 26 23 == h)
  side 16 || side 40 || (dMode d != 0 && fld (dw d 0) 15 12 == h)

/-- Does a fabric side of a descriptor, or its scale array, lie in bytes [lo, hi)? (R254) -/
def liesIn (w : Wk) (d : List Word) (lo hi : Int) : Bool :=
  match w.cvt (dw d 1) with
  | none => false
  | some cv =>
    let inside (x : Option (Int × Int)) : Bool := match x with
      | some (a, b) => decide (lo ≤ a) && decide (b < hi)
      | none => false
    let side (s : Side) (mx : Bool) : Bool := s.fab && (inside s.footprint || (mx && inside s.scaleExtent))
    side (sideOf d 16 cv.src) cv.srcMx || side (sideOf d 40 cv.dst) cv.dstMx

/-- VALID cleared in every slot of a context whose descriptor satisfies `p` (R254). -/
def Wk.invalidate (w : Wk) (ctx : Nat) (p : List Word → Bool) : Wk :=
  iter 16 (fun d w => if p (w.c.desc ctx d) then w.setDescValid ctx d false else w) w

/-- A write to a handle register: `hi` selects CORE_HND_SIZE (R153, R168, R193, R254). -/
def Wk.handleWrite (w : Wk) (ctx h : Nat) (hi : Bool) (v : Word) : Wk × Status :=
  let off := 0x1000 + 0x80 * ctx + 8 * h + (if hi then 4 else 0)
  if w.c.ctxBusy ctx then w.refuseWrite off ctx St.CTX_STATE
  else ((w.setReg off (v &&& (if hi then 0x3FFC0 else 0xF001FFC0))).invalidate ctx (fun d => namesHandle d h)).ok

/-- Does window `k` as stored exceed its memory or name the reserved memory? (R159) [DEDUCED, log 32] -/
def Wk.windowBad (w : Wk) (k : Nat) : Bool :=
  let m := fld (w.reg (0x1200 + 16 * k)) 28 27
  m == 3 || decide (memSize w.env.smallPantry m < 64 * fld (w.reg (0x1204 + 16 * k)) 16 6 + 64 * fld (w.reg (0x1208 + 16 * k)) 17 6)

/-- A write to register `r` (0 CTL, 1 BASE, 2 SIZE) of window `k` (R159, R169): the fields take effect, and a window that then
exceeds its memory is closed with MEM_RANGE. [DESIGN CHOICE, log 139] -/
def Wk.windowWrite (w : Wk) (k r : Nat) (v : Word) : Wk × Status :=
  let off := 0x1200 + 16 * k + 4 * r
  let w := w.setReg off (v &&& (if r = 0 then 0xFF000FFF else if r = 1 then 0x1FFC0 else 0x3FFC0))
  let ctl := 0x1200 + 16 * k
  if bit (w.reg ctl) 31 ∧ w.windowBad k then
    (w.setReg ctl (w.reg ctl &&& 0x7FFFFFFF)).refuseWrite off 0 St.MEM_RANGE
  else w.ok

/-- The windows that may be a DMA side: is the whole of [base, base + size) inside the memories of one core window, of an existing row
on this die, or inside listed stack windows of this die? (R29, R243, R516) [DEDUCED, log 32] -/
def Wk.fabricOk (w : Wk) (base size : Nat) : Bool :=
  let last := base + size - 1
  let die := base / 2 ^ 48
  let lo := base % 2 ^ 48
  let hi := last % 2 ^ 48
  if size = 0 then true
  else if last / 2 ^ 48 ≠ die then false
  else if hi < 2 ^ 32 then
    let code := lo / 2 ^ 20
    let a := lo % 2 ^ 20
    let b := hi % 2 ^ 20
    hi / 2 ^ 20 == code && decide (code / 64 < 48) && decide (code % 64 < 48) && decide (b < 0x50000) &&
      (die != w.env.die.toNat || (!w.env.absentRows.contains (code / 64) &&
        !(w.env.smallPantry && decide (a < 0x20000) && decide (0x10000 ≤ b))))
  else if 0x100000000000 ≤ lo ∧ hi < 0x100000000000 + 24 * 2 ^ 37 then
    die == w.env.die.toNat &&
      (List.range 24).all (fun k =>
        let b := 0x100000000000 + k * 2 ^ 37
        decide (hi < b) || decide (b + 2 ^ 37 ≤ lo) || bit (w.env.porch (0x82400 + 4 * k)) 31)
  else false

/-- Does an entry that allows writes touch a read view, or one that allows anything the image copy? (R345, R347) -/
def Wk.atticForbids (w : Wk) (base size : Nat) (rd wr : Bool) : Bool :=
  (List.range 16).any (fun r =>
    let ctl := w.env.porch (0xC0100 + 16 * r)
    let b := w.env.die.toNat * 2 ^ 48 + 0x100000000000 + fld ctl 4 0 * 2 ^ 37
    let a := b + 64 * (w.env.porch (0xC0104 + 16 * r)).toNat
    let n := 64 * (w.env.porch (0xC010C + 16 * r)).toNat
    bit ctl 31 && decide (0 < size) && decide (0 < n) && decide (a < base + size) && decide (base < a + n) && (wr || (rd && bit ctl 30)))

/-- A write to register `r` (0 CTL, 1 BASE_LO, 2 BASE_HI, 3 SIZE) of range entry `k` of a context (R244, R254, R268, R347).
[DEDUCED, log 32] -/
def Wk.rangeWrite (w : Wk) (ctx k r : Nat) (v : Word) : Wk × Status :=
  let b := 0x6400 + 0x100 * ctx + 16 * k
  if w.c.ctxBusy ctx then w.refuseWrite (b + 4 * r) ctx St.CTX_STATE
  else
    let base (w : Wk) : Nat := (w.reg (b + 4)).toNat + put (w.reg (b + 8)).toNat 32
    let size (w : Wk) : Nat := 64 * (w.reg (b + 12)).toNat
    let w := w.invalidate ctx (fun d => liesIn w d (base w) (base w + size w))
    let w := w.setReg (b + 4 * r) (v &&& (if r = 0 then 0xE000000F else if r = 1 then 0xFFFFFFC0 else 0xFFFFFFFF))
    let w := w.invalidate ctx (fun d => liesIn w d (base w) (base w + size w))
    let ctl := w.reg b
    if bit ctl 31 ∧ (w.fabricOk (base w) (size w) = false ∨ w.atticForbids (base w) (size w) (bit ctl 30) (bit ctl 29)) then
      (w.setReg b (ctl &&& 0x7FFFFFFF)).refuseWrite b ctx St.DMA_RANGE
    else w.ok

/-- A write of descriptor word 0: stored, and the slot's words 1 to 63 validated with it (R252, R254). [DEDUCED, log 59] -/
def Wk.descWord0 (w : Wk) (ctx d : Nat) (v : Word) : Wk × Status :=
  let off := descReg ctx d 0
  if w.c.ctxBusy ctx then w.refuseWrite off ctx St.CTX_STATE
  else
    let w := w.setReg off (v &&& 0x7FFFF000)
    let st := w.validate ctx (w.c.desc ctx d)
    let w := w.defStat ctx d st
    if st = St.OK then (w.setDescValid ctx d true).ok
    else (w.dmaErr (dCh (w.c.desc ctx d)) st, st)

/-- A write of descriptor words 1 to 63: stored, and the slot's VALID cleared (R254). [DEDUCED, log 59] -/
def Wk.descWord (w : Wk) (ctx d i : Nat) (v : Word) : Wk × Status :=
  if w.c.ctxBusy ctx then w.refuseWrite (descReg ctx d i) ctx St.CTX_STATE
  else ((w.setReg (descReg ctx d i) v).setDescValid ctx d false).ok

/-! ### Synchronisation, streams and gates -/

/-- A write to SEM_MAP (R193, R270). [DEDUCED, log 60] -/
def Wk.semMapWrite (w : Wk) (ctx id : Nat) (v : Word) : Wk × Status :=
  let off := 0xC000 + 0x100 * ctx + 4 * id
  let phys := fld v 5 0
  if w.c.ctxBusy ctx then (w.semErr phys St.CTX_STATE, St.CTX_STATE)
  else if bit v 31 && (decide (48 ≤ phys) || (match w.c.semOwner phys with | some o => o != (ctx, id) | none => false)) then
    (w.semErr phys St.SEM_MAP, St.SEM_MAP)
  else (w.setReg off (v &&& 0x8000003F)).ok

/-- A Service write to SEM_VAL: SATF is W1C, the value replaced and ORPH cleared while the owner is neither RUNNING nor DRAINING
(R273, R276, R288, R487); `rdie` is the requester's die. -/
def Wk.semValWrite (w : Wk) (p : Nat) (v : Word) (rdie : DieAddr) : Wk × Status :=
  if (match w.c.semOwner p with | some o => w.c.ctxBusy o.1 | none => false) then w.refuseWrite (0xC400 + 64 * p) 0 St.CTX_STATE
  else (w.initSem p (fld v 15 0) (w.lsig 3 rdie 0)).ok

/-- A write to fill gate `g`: register 0 CTL or 1 DL (R302, R305, R310, R488). [DESIGN CHOICE, log 48] [DEDUCED, log 120] -/
def Wk.gateWrite (w : Wk) (g r : Nat) (v : Word) : Wk × Status :=
  let off := 0x4260 + 16 * g + 4 * r
  let old := w.reg (0x4260 + 16 * g)
  let ep := fld v 3 0
  let busy := w.c.ctxBusy (w.c.epCtx (fld old 3 0))
  let refuse (e : Nat) (st : Status) : Wk × Status := (w.strmErr e false st, st)
  if r = 1 then
    if busy then refuse (fld old 3 0) St.CTX_STATE else (w.setReg off (v &&& 0xFFFFFF)).ok
  else
    let other := w.reg (0x4260 + 16 * (1 - g))
    let moved := fld old 3 0 != ep || fld old 12 8 != fld v 12 8
    if w.c.annex ∧ bit v 31 then refuse ep St.ANNEX_RANGE
    else if moved && (busy || w.c.ctxBusy (w.c.epCtx ep)) then refuse ep St.CTX_STATE
    else if bit v 31 ∧ (w.c.epMode ep ≠ 2 ∨ (bit other 31 ∧ fld other 3 0 = ep)) then refuse ep St.STRM_MODE
    else
      let w := if bit old 31 ∧ (bit v 31 = false ∨ fld old 3 0 ≠ ep) then w.releaseGate g (fld old 3 0) (w.c.ep (fld old 3 0)).heldRows false else w
      (w.setReg off (v &&& 0x80001F0F)).ok

/-- A write to register `r` (word index) of endpoint `e` (R193, R213, R220, R238, R488, R489). [DESIGN CHOICE, log 48] -/
def Wk.epWrite (w : Wk) (e r : Nat) (v : Word) : Wk × Status :=
  let off := 0x4000 + 32 * e + 4 * r
  let busy := w.c.ctxBusy (w.c.epCtx e)
  match r with
  | 0 =>
    if busy ∨ w.c.ctxBusy (fld v 27 26) then w.refuseWrite off (w.c.epCtx e) St.CTX_STATE
    else if w.c.annex ∧ ((8 ≤ e ∧ fld v 31 30 ≠ 0) ∨ fld v 29 28 = 2) then w.refuseWrite off 0 St.ANNEX_RANGE
    else (w.setReg off (v &&& 0xFFFFF000)).ok
  | 1 => if busy then w.refuseWrite off (w.c.epCtx e) St.CTX_STATE else (w.setReg off (v &&& 0xFFFF)).ok
  | 2 =>
    if busy then w.refuseWrite off (w.c.epCtx e) St.CTX_STATE
    else
      let x := v &&& 0xFF0007FF
      ((w.setReg off x).modEp e (fun p => { p with shaper := Shaper.fill x w.env.cyc })).ok
  | 3 => if busy then w.refuseWrite off (w.c.epCtx e) St.CTX_STATE else (w.setReg off (v &&& 0x3F7F)).ok
  | 4 => if busy then w.refuseWrite off (w.c.epCtx e) St.CTX_STATE else (w.setReg off (v &&& 0x0FFF07FF)).ok
  | 6 => (w.setReg off (v &&& 0xFFFF)).ok
  | 7 => (w.setReg off v).ok
  | _ => w.ok

/-- A write to STRM_STEER_CTL of unit `u` (R232, R234, R238, R488): EN = 0 ends a stop of the unit. [DESIGN CHOICE, log 49] -/
def Wk.steerWrite (w : Wk) (u : Nat) (v : Word) : Wk × Status :=
  let off := 0x4200 + 8 * u
  if w.c.annex ∧ bit v 31 then (w.strmErr u false St.ANNEX_RANGE, St.ANNEX_RANGE)
  else
    let w := w.setReg off (v &&& 0x8FFFFFFF)
    (if bit v 31 then w else w.modSteer u (fun s => { s with stopped := false })).ok

/-- A write to DMA_CH_RES of channel `ch`: its bucket holds the new BURST (R220, R240, R267). -/
def Wk.chResWrite (w : Wk) (ch : Nat) (v : Word) : Wk × Status :=
  let x := v &&& 0xFF0007FF
  ((w.setReg (0x6010 + 8 * ch) x).modChan ch (fun k => { k with shaper := Shaper.fill x w.env.cyc })).ok

/-- A write to a capture slot (R136, R137, R142): a negative value sets +0 and a NaN the canonical NaN, and then the captures of the same
cycle fold in. [DESIGN CHOICE, log 128] -/
def Wk.amaxWrite (w : Wk) (n : Nat) (v : Word) : Wk × Status :=
  let v := if bit v 31 then 0 else canonF32 v
  let c := tget (0, 0) w.c.caps n
  (w.setReg (0x820 + 4 * n) (if c.1 = w.env.cyc + 1 then amaxStep v c.2 else v)).ok

/-! ### Annex mode, contexts, units, debug -/

/-- A write of CORE_ANNEX_CTL (R480). -/
def Wk.annexWrite (w : Wk) (v : Word) : Wk × Status :=
  if (List.range 4).any (fun k => (w.c.ctx k).state != .empty) then w.refuseWrite 0xA00 0 St.CTX_STATE
  else if bit v 31 ∧ w.env.elig = false then w.refuseWrite 0xA00 0 St.ANNEX_GEOM
  else
    let change := bit v 31 != w.c.annex
    let w := w.setReg 0xA00 (v &&& 0x80000000)
    (if change then iter 48 (fun p w => w.modSem p (fun s => { s with value := s.value % 2 ^ 14 })) w else w).ok

/-- A write of CORE_CTX_CTL of a context (R191). -/
def Wk.ctxCtl (w : Wk) (ctx : Nat) (v : Word) : Wk × Status :=
  let st (w2 : Wk) (allowed : Bool) : Wk × Status := (w2, if allowed then St.OK else St.CTX_STATE)
  let k := (w.c.ctx ctx).state
  match fld v 3 0 with
  | 0 => w.ok
  | 1 => st (w.ctxStart ctx) (w.c.mayStart ctx)
  | 2 => st (w.ctxStop ctx) (k == .running)
  | 4 => st (w.ctxLoaded ctx) (k == .empty)
  | 8 => st (w.ctxClear ctx) (!w.c.ctxBusy ctx)
  | _ => w.refuseWrite (0x100 + 0x20 * ctx) ctx St.CTX_STATE

/-- A write of CORE_UNIT_CTL: each unit acts on its own request (R199, R201). -/
def Wk.unitCtl (w : Wk) (v : Word) : Wk × Status :=
  (iter 5 (fun u w =>
    if bit v (8 + u) then w.unitForce u
    else if bit v u then w.unitDrain u
    else if bit v (16 + u) then w.unitReen u
    else w) w).ok

/-- A write of DBG_CORE_CTL (R506, R507, R512). -/
def Wk.dbgCtl (w : Wk) (v : Word) : Wk × Status :=
  match fld v 31 29 with
  | 0 => (w.setReg 0xF000 (v &&& 0xFFFF)).ok
  | 4 => ((w.setReg 0xF000 (v &&& 0xFFFF)).dbgHalt 0).ok
  | 2 => if w.c.dbg.halted then ((w.setReg 0xF000 (v &&& 0xFFFF)).dbgStep).ok else w.refuseWrite 0xF000 (w.c.active.getD 0) St.CTX_STATE
  | 1 => if w.c.dbg.halted then ((w.setReg 0xF000 (v &&& 0xFFFF)).dbgResume).ok else w.refuseWrite 0xF000 (w.c.active.getD 0) St.CTX_STATE
  | _ => w.refuseWrite 0xF000 (w.c.active.getD 0) St.CTX_STATE

/-! ### The register block (R519) -/

/-- A write of one 32-bit register of the core register block at an aligned block offset, from a requester on die `rdie`. A word no
register occupies ignores it (R15, R516). -/
def Wk.writeReg (w : Wk) (off : Nat) (v : Word) (rdie : DieAddr) : Wk × Status :=
  if off = 0x004 ∨ off = 0x71C ∨ off = 0x818 ∨ off = 0x930 ∨ off = 0x938 ∨ off = 0x944 ∨ off = 0x4240 ∨ off = 0x6050 ∨ off = 0xD200 then
    w.writeW1c off v
  else if off = 0x00C then
    if bit v 31 then
      let t := fld v 1 0
      (w.seqSwitch t, if w.c.active.isSome && w.c.maySwitch t && !w.c.sw.isSome then St.OK else St.CTX_STATE)
    else w.ok
  else if off = 0x020 then w.unitCtl v
  else if 0x100 ≤ off ∧ off < 0x180 then
    let c := (off - 0x100) / 0x20
    if off % 0x20 = 0 then w.ctxCtl c v
    else if off % 0x20 = 8 then w.writeCtxReg c off 0x0FFF0FFF v
    else w.ok
  else if 0x200 ≤ off ∧ off < 0x300 then
    let c := (off - 0x200) / 0x40
    if off % 8 = 0 then w.writePlain off 0xFFFFFFFF v else w.writeCtxReg c off 0xFFFFFFFF v
  else if off = 0x600 then w.writePlain off (if fld v 1 0 = 3 then 0xC else 0xF) v
  else if off = 0x620 ∨ off = 0x624 then
    match w.c.active with
    | some c => w.refuseWrite off c St.CTX_STATE
    | none => w.writePlain off 0xFFFFFFFF v
  else if 0x824 ≤ off ∧ off ≤ 0x83C then w.amaxWrite ((off - 0x820) / 4) v
  else if off = 0x900 then w.writePlain off 0x1F v
  else if off = 0x908 ∨ off = 0x90C ∨ off = 0x910 then (w.bankPower ((off - 0x908) / 4) v).ok
  else if off = 0xA00 then w.annexWrite v
  else if 0x1000 ≤ off ∧ off < 0x1200 then w.handleWrite ((off - 0x1000) / 0x80) (off % 0x80 / 8) (decide (off % 8 = 4)) v
  else if 0x1200 ≤ off ∧ off < 0x1280 then
    if off % 16 = 12 then w.ok else w.windowWrite ((off - 0x1200) / 16) (off % 16 / 4) v
  else if 0x2000 ≤ off ∧ off < 0x2800 then
    let c := (off - 0x2000) / 0x200
    let r := off % 32
    if r = 0 then w.writeCtxReg c off 0xEF000FFF v
    else if r ≤ 12 then w.writeCtxReg c off 0xFFC0FFFF v
    else if r = 16 then w.writeCtxReg c off 0xFFFFFFFF v
    else w.ok
  else if 0x3000 ≤ off ∧ off < 0x3400 then
    let c := (off - 0x3000) / 0x100
    let r := off % 0x100
    if r < 0x60 then w.writeCtxReg c off 0xFFFFFFFF v
    else if r < 0xA0 then w.writeCtxReg c off 0xFFFF v
    else w.ok
  else if 0x4000 ≤ off ∧ off < 0x4200 then w.epWrite ((off - 0x4000) / 32) (off % 32 / 4) v
  else if off = 0x4200 ∨ off = 0x4208 then w.steerWrite ((off - 0x4200) / 8) v
  else if off = 0x4260 ∨ off = 0x4264 ∨ off = 0x4270 ∨ off = 0x4274 then w.gateWrite ((off - 0x4260) / 16) (off % 16 / 4) v
  else if 0x6010 ≤ off ∧ off < 0x6030 ∧ off % 8 = 0 then w.chResWrite ((off - 0x6010) / 8) v
  else if 0x6400 ≤ off ∧ off < 0x6800 ∧ off % 0x100 < 0x80 then
    w.rangeWrite ((off - 0x6400) / 0x100) (off % 0x100 / 16) (off % 16 / 4) v
  else if 0x8000 ≤ off ∧ off < 0xC000 then
    let c := (off - 0x8000) / 0x1000
    let d := off % 0x1000 / 256
    if off % 256 = 0 then w.descWord0 c d v else w.descWord c d (off % 256 / 4) v
  else if 0xC000 ≤ off ∧ off < 0xC400 then w.semMapWrite ((off - 0xC000) / 0x100) (off % 0x100 / 4) v
  else if 0xC400 ≤ off ∧ off < 0xD000 ∧ off % 64 = 0 then w.semValWrite ((off - 0xC400) / 64) v rdie
  else if 0xD100 ≤ off ∧ off < 0xD140 then
    let k := (off - 0xD100) / 16
    let owner := fld (w.reg (0xD100 + 16 * k)) 1 0
    if w.c.ctxBusy owner then w.refuseWrite off owner St.CTX_STATE
    else match off % 16 with
    | 0 => w.writePlain off 0x80000003 v
    | 4 => w.writePlain off 0xFFFFFFFF v
    | 8 => w.writePlain off 0xFFFFFFFF v
    | _ => w.ok
  else if off = 0xD140 then w.writePlain off 0x7FFFFFFF v
  else if 0xD180 ≤ off ∧ off < 0xD200 then w.writePlain off 0xFF v
  else if off = 0xE000 then
    let c := fld (w.reg off) 29 28
    if w.c.ctxBusy c ∨ w.c.ctxBusy (fld v 29 28) then w.refuseWrite off c St.CTX_STATE else w.writePlain off 0xBFFFFFFF v
  else if 0xE040 ≤ off ∧ off < 0xE0C0 then
    let c := fld (w.reg 0xE000) 29 28
    if w.c.ctxBusy c then w.refuseWrite off c St.CTX_STATE
    else match off % 16 with
    | 0 => w.writePlain off 0xBF01FFC0 v
    | 4 => w.writePlain off 0x3FFC0 v
    | 8 => w.writePlain off 0xFFFFFFFF v
    | _ => w.ok
  else if off = 0xF000 then w.dbgCtl v
  else w.ok

/-- STATE of a context as the register shows it (R190). -/
def CtxState.code : CtxState → Nat
  | .empty => 0
  | .ready => 1
  | .running => 2
  | .draining => 3
  | .stopped => 4
  | .faulted => 5

/-- The SWAIT at the head of queue `q` on physical semaphore `p`? (R288) -/
def Core.headWaits (c : Core) (q p : Nat) : Bool :=
  match (if q = 0 then c.sync0 else (c.queue q).head?) with
  | some e => opc e.word == 0x11 && fld e.word 54 53 == 0 && c.semPhys e.ctx (fld e.word 34 29) == some p
  | none => false

/-- The waiters of a physical semaphore as (KIND, IDX), in the order of R276 (R288). -/
def Core.waiters (c : Core) (p : Nat) : List (Nat × Nat) :=
  let fb : List (Nat × Nat) := match c.semOwner p with
    | some (ctx, id) =>
      if (c.ctx ctx).state = .running then
        ((List.range 16).filter (fun b => c.fbOn ctx b && (c.fbTerms ctx b).any (fun t => fld t 31 29 == 1 && fld t 27 22 == id))).map (fun b => (6, b))
      else []
    | none => []
  fb ++ ((List.range 6).filter (fun q => c.headWaits q p)).map (fun q => (q, 0)) ++
    ((List.range 16).filter (fun i => match c.rwait i with | some r => r.phys == p | none => false)).map (fun i => (7, i))

/-- SEM_VAL and its companions of physical semaphore `p`, word `r` (R288). -/
def Core.semWord (c : Core) (cyc p r : Nat) : Nat :=
  let s := c.sem p
  let ws := c.waiters p
  let wid (i : Nat) : Nat := match ws[i]? with
    | some (k, x) => put 1 15 + put k 12 + put x 8
    | none => 0
  match r with
  | 0 => put (b2n s.orph) 31 + put (b2n s.satf) 30 + put (b2n (c.semOwner p).isSome) 29 + put ((c.semOwner p).getD (0, 0)).1 27 + s.before cyc
  | 1 => ws.length
  | 2 => wid 0 + put (wid 1) 16
  | 3 => wid 2 + put (wid 3) 16
  | 4 => wid 4 + put (wid 5) 16
  | 5 => wid 6 + put (wid 7) 16
  | 6 => match s.lsig with
    | some l => put 1 31 + put l.kind 29 + put l.sdie.toNat 12 + l.score.toNat
    | none => 0
  | 7 => match s.lsig with | some l => l.ts.toNat % 2 ^ 32 | none => 0
  | 8 => match s.lsig with | some l => l.ts.toNat / 2 ^ 32 | none => 0
  | _ => 0

/-- A remote-wait entry's words (R288). -/
def Wk.rwaitWord (w : Wk) (i r : Nat) : Nat :=
  match w.c.rwait i with
  | none => 0
  | some x =>
    match r with
    | 0 => put 1 31 + put (b2n x.cons) 30 + put (b2n x.cmp) 29 + put x.phys 23 + put x.tag 19 + x.thresh
    | 1 => put x.sdie.toNat 16 + x.score.toNat
    | 2 => match x.limit with | some t => t - w.env.cyc | none => 0
    | _ => 0

/-- A core is quiescent in cycle `cyc` (R351). -/
def Core.quiescent (c : Core) (cyc : Nat) : Bool :=
  let bound := fld (c.reg 0xE000) 29 28
  !(c.ctxBusy bound && (c.ctx bound).inblk) && c.waiting.isEmpty && c.sync0.isNone && !c.dmaBusy &&
    (List.range 16).all (fun e => c.epMode e != 2 || (c.ep e).q.isEmpty) && (List.range 2).all (fun u => (c.steer u).out.isEmpty) &&
    !c.pipesBusy cyc

/-- What a read of an RO or composed register returns; the others return what is stored (R16, R118, R142, R167, R202, R238, R267, R288,
R310, R379, R491, R512). -/
def Wk.viewReg (w : Wk) (off : Nat) : Word :=
  let c := w.c
  let cyc := w.env.cyc
  let n (x : Nat) : Word := BitVec.ofNat 32 x
  if off = 0x000 then
    n (put (b2n (match c.sw with | some s => s.reconf.isSome | none => false)) 3 + put (b2n c.active.isSome) 2 + c.active.getD 0)
  else if off = 0x00C ∨ off = 0x020 then 0
  else if off = 0x024 then n ((List.range 5).foldl (fun a u => a + put (c.unit u) (2 * u)) 0)
  else if 0x100 ≤ off ∧ off < 0x180 then
    let k := (off - 0x100) / 0x20
    let x := c.ctx k
    match off % 0x20 with
    | 0x04 => n (put x.pc 16 + put x.blk 4 + put (b2n x.inblk) 3 + x.state.code)
    | 0x0C => n (put x.sr.toNat 16 + x.sc.toNat)
    | 0x10 => n (put x.ovr.toNat 8 + x.sk.toNat)
    | _ => c.reg off
  else if off = 0x700 then
    n (put c.mx.rampV.level 21 + put c.mx.rampM.level 18 + put (b2n (decide (cyc < max c.mx.pathFree (c.queueDone 2)) || !(c.queue 2).isEmpty)) 17 +
      put (b2n (decide (cyc < max c.mx.arrFree (c.queueDone 1)) || !(c.queue 1).isEmpty)) 16 + put (c.queue 1).length 11 + put w.env.bypCol 8 + put w.env.width 4)
  else if off = 0x800 then n (put (b2n (decide (cyc < c.ve.lsDone))) 7 + put (b2n (decide (cyc < c.ve.arDone))) 6 + (c.queue 3).length)
  else if off = 0x904 then n (bitsOf 3 (fun m => (List.range 16).any (fun b => (c.bank m b).waits)))
  else if off = 0xA00 then c.reg off ||| n (b2n w.env.elig)
  else if 0x4000 ≤ off ∧ off < 0x4200 ∧ off % 32 = 0x14 then
    let e := (off - 0x4000) / 32
    n (put (c.ep e).spillCount 16 + (c.ep e).ringCount)
  else if off = 0x4204 ∨ off = 0x420C then
    let u := (off - 0x4204) / 8
    n (put (c.steerState u) 16 + (c.steer u).ltag.toNat)
  else if off = 0x4268 ∨ off = 0x4278 then
    let g := (off - 0x4268) / 16
    let r := tget (0, false) c.gateRel g
    let held := match (if bit (c.reg (0x4260 + 16 * g)) 31 then some (c.ep (fld (c.reg (0x4260 + 16 * g)) 3 0)) else none) with
      | some p => p.heldRows
      | none => 0
    n (put held 16 + put r.1 8 + b2n r.2)
  else if off = 0x6000 then n (put (bitsOf 4 (fun ch => (c.chan ch).run.isSome)) 4 + (c.queue 4).length)
  else if 0x6010 ≤ off ∧ off < 0x6030 ∧ off % 8 = 4 then
    let k := c.chan ((off - 0x6014) / 8)
    n (put (b2n k.run.isSome) 31 + put k.ctx 4 + k.slot)
  else if 0xC400 ≤ off ∧ off < 0xD000 then n (c.semWord cyc ((off - 0xC400) / 64) (off % 64 / 4))
  else if 0xD000 ≤ off ∧ off < 0xD100 then n (w.rwaitWord ((off - 0xD000) / 16) (off % 16 / 4))
  else if 0xD100 ≤ off ∧ off < 0xD140 ∧ off % 16 = 0 then
    c.reg off ||| n (put (b2n (tget false c.wcOrph ((off - 0xD100) / 16))) 30)
  else if 0xD180 ≤ off ∧ off < 0xD200 then c.reg off ||| n (put (b2n (tget false c.barArr ((off - 0xD180) / 4))) 31)
  else if off = 0xE004 then n (put (b2n c.spanArr) 31 + put (b2n (c.quiescent cyc)) 30 + put (b2n c.tdev) 29)
  else if off = 0xF004 then
    n (put (b2n c.dbg.halted) 31 + put (b2n c.dbg.pend) 30 + put c.dbg.cause 28 + put c.dbg.hctx 16 + put c.dbg.next 4 + (c.ctx (c.active.getD c.dbg.hctx)).blk)
  else c.reg off

/-- A read of a register of the block: its view, an RC field then cleared but for the events of the same cycle (R16, R17). -/
def Wk.readReg (w : Wk) (off : Nat) : Wk × Word :=
  if coreRc off then
    let x := takeFresh w.c.fresh w.env.cyc off (w.reg off)
    ((w.setReg off x.2.1).onCore (fun c => { c with fresh := x.2.2 }), x.1)
  else (w, w.viewReg off)

/-! ### The instruction store (R193, R518) -/

/-- Is an instruction word inside the range of a context that is RUNNING or DRAINING? (R193) -/
def Core.wordProtected (c : Core) (i : Nat) : Bool := (List.range 4).any (fun k => c.ctxBusy k && c.inRange k i)

/-- One half of an instruction word written under byte masks (R193, R518). -/
def Wk.writeInstr (w : Wk) (i : Nat) (v mask : BitVec 64) : Wk × Status :=
  if w.c.wordProtected i then w.refuseWrite 0 (w.c.active.getD 0) St.CTX_STATE
  else (w.onCore (fun c => { c with istore := tset 0 c.istore i ((tget 0 c.istore i &&& ~~~mask) ||| (v &&& mask)) })).ok

end Sys2Proof.Machine
end

