-- ==== Sys2Proof/Machine/DieState.lean ====
section
/-! DEFINITION. The state of the whole die beside its queue of commands, as plain data. Registers of die control that hold
what was written, or what the die records, live in `regs`, keyed by their offset from 0x0001_0000_0000 (R520). -/

namespace Sys2Proof.Machine

/-- A fault-log entry (R494): the cycle and timestamp of its event, severity, source, place, status, context, physical column
and span number. -/
structure FEntry where
  at_ : Nat
  ts : BitVec 64
  sev : Nat
  src : Nat
  loc : Nat
  st : Status
  ctx : Nat
  pcol : Nat
  span : Nat
deriving DecidableEq, Repr

/-- A mesh flit on its way across a link, with the destination and source die of the link control (R317). -/
structure LFlit where
  ddie : DieAddr
  sdie : DieAddr
  flit : Flit
deriving DecidableEq, Repr

/-- A sequenced flit in a replay buffer (R321): its LSEQ, its codeword bits [767:84] with the fields [83:52], the barrier
event it carries, the cycle it was last sent and how often it has been resent. -/
structure Sent where
  lseq : Nat
  body : BitVec 768
  at_ : Nat
  again : Nat
deriving DecidableEq, Repr

/-- A transport packet (R335): its header's fields, the module it arrives on, the header's source die, and its data flits. -/
structure Packet where
  mod : Nat
  sdie : DieAddr
  tseq : Nat
  cnt : Nat
  tack : Nat
  nak : Bool
  flits : List LFlit
deriving DecidableEq, Repr

/-- One link module beside its registers (R313 to R323, R328, R335): next LSEQ to send, the replay buffer, resends in a row and
the next to resend, next LSEQ expected, whether a replay request waits to be sent, whether one has been sent for the present
gap, for each VC the credits in use, the last CCNT seen and the slots freed, the VC whose count goes next, the Landing's
egress and ingress queues, barrier events waiting (kind and channel), the transit shaper, the transport packet arriving, and
whether a replay request from the peer waits to be served, the data flit that comes next when a packet's header has gone,
and the last flit put on the wires. -/
structure Module where
  txSeq : Nat
  replay : List Sent
  resends : Nat
  resendFrom : Option Nat
  rxSeq : Nat
  askReplay : Bool
  asked : Bool
  asks : Bool
  opened : Option LFlit
  used : Tbl Nat
  seen : Tbl Nat
  freed : Tbl Nat
  cvc : Nat
  egress : List LFlit
  ingress : List LFlit
  events : List (Nat × Nat)
  shaper : Shaper
  packet : Option Packet
  wire : Option (BitVec 768)
deriving DecidableEq, Repr

/-- A module at the start of training: every count 0 and every credit in hand (R320). [DESIGN CHOICE, log 9] -/
def Module.reset : Module :=
  { txSeq := 0, replay := [], resends := 0, resendFrom := none, rxSeq := 0, askReplay := false, asked := false, asks := false, opened := none, used := [], seen := [], freed := [], cvc := 0
    egress := [], ingress := [], events := [], shaper := ⟨0, 0⟩, packet := none, wire := none }

/-- An unacknowledged packet in the retransmit buffer (R336): its TSEQ, its data flit, the timestamp of its last sending, and the
module it is bound for. -/
structure Unacked where
  tseq : Nat
  flit : LFlit
  at_ : Nat
  mod : Nat
deriving DecidableEq, Repr

/-- One long-reach connection beside its registers (R334 to R337): unacknowledged packets, the next of them to send again, resends
in a row, packets accepted since the last acknowledgement and the timestamp of the first of them, whether a NAK has been sent for
the present gap, packets that wait for TRANSPORT_PACKET_RECEIVE, and headers to send, each with its NAK bit. -/
structure Conn where
  unacked : List Unacked
  resend : Option Nat
  retries : Nat
  since : Nat
  firstAt : Nat
  naked : Bool
  got : List Packet
  control : List Bool
deriving DecidableEq, Repr

/-- A connection whose EN has just been set (R334). -/
def Conn.reset : Conn := ⟨[], none, 0, 0, 0, false, [], []⟩

/-- A memory-hub request outstanding (R331 to R333): its module, requester, channel and number, whether it reads, the lines
still to come, and the timestamp at which it left. -/
structure HubReq where
  mod : Nat
  src : Nat
  sep : Nat
  mseq : Nat
  read : Bool
  left : Nat
  at_ : Nat
deriving DecidableEq, Repr

/-- A barrier channel beside its registers (R283, R287, R323): the child modules that have arrived, whether the arrival has been
sent upward, and a release that the parent has sent (marked orphaned or not). -/
structure Bar where
  kids : List Nat
  up : Bool
  down : Option Bool
deriving DecidableEq, Repr

/-- A channel with a fresh phase. -/
def Bar.reset : Bar := ⟨[], false, none⟩

/-- Who sends a Service request, and by which way (R448): the Cellar, a module, or a core of this die. -/
inductive Via where
  | cellar
  | module (m : Nat)
  | core (c : CoreCode)
deriving DecidableEq, Repr

/-- An operand of a Service command (R500): the way it came, its PORT bit, the requesting die, the source core of its header, and
the fabric address. -/
structure Req where
  via : Via
  port : Nat
  rdie : DieAddr
  src : CoreCode
  addr : BitVec 64
deriving DecidableEq, Repr

/-- A source of a dirty mark (R377). -/
structure Mark where
  src : Nat
  loc : Nat
  st : Status
deriving DecidableEq, Repr

/-- The span logic beside its registers (R342 to R376): the cycles and timestamp of the running attempt's GO release and commit,
whether the die has arrived in the current phase, a mark held for the next attempt, the first mark of the attempt before, the
stop that waits for the commit (condition and status), whether an orphaned release or a stop has been sent, whether the
watchdog has spoken in this attempt, the cores to take over, the log messages awaiting a reply (LOP and deadline), whether
HOLD and REWIND have been answered OK, the START
from STOPPED that waits for REWIND's reply: the port and, where it came as a request, the request; and what the last restore read of
the Attic, as fabric addresses and counts of lines (R345, R348, R362). -/
structure Span where
  goTs : Nat
  goCyc : Nat
  prevCycles : Nat
  arrived : Bool
  held : Option Mark
  prev : Option (Nat × Mark)
  stop : Option (Nat × Status)
  rolling : Bool
  wdog : Bool
  failed : List Nat
  log : List (Nat × Nat × Nat)
  logOk : List Nat
  restarting : Option (Nat × Option Req)
  reads : List (Nat × Nat)
deriving DecidableEq, Repr

/-- The span logic with no job (R377). -/
def Span.reset : Span :=
  { goTs := 0, goCyc := 0, prevCycles := 0, arrived := false, held := none, prev := none, stop := none, rolling := false, wdog := false
    failed := [], log := [], logOk := [], restarting := Option.none, reads := [] }

/-- The loaded job (R441, R457 to R461, R525): the container, the words of USE, the floor clock, the window and offset of its
copy, the state of JOB_STAT, the cycle and timestamp at which a scrub began, and the regions that the load woke. -/
structure Job where
  image : List Word
  use : List Word
  floor : Nat
  pausep : Bool
  pmh : Bool
  state : Nat
  scrubAt : Nat
  scrubTs : Nat
  woke : Nat
deriving DecidableEq, Repr

/-- No job (R457). -/
def Job.none : Job := ⟨[], [], 0, false, false, 0, 0, 0, 0⟩

/-- A waiter of the Doorlatch (R455): port, die, lease asked for, AON ticks left, whether it has a timeout, and its request. -/
structure DlWait where
  port : Nat
  sdie : DieAddr
  lease : Nat
  left : Nat
  timed : Bool
  req : Req
deriving DecidableEq, Repr

/-- The Doorlatch (R453). -/
structure Latch where
  held : Bool
  orph : Bool
  port : Nat
  sdie : DieAddr
  lastp : Nat
  left : Nat
  ts : BitVec 64
  waiters : List DlWait
deriving DecidableEq, Repr

/-- The Doorlatch at PORST_N: free, LASTP = B (R453). -/
def Latch.reset : Latch := ⟨false, false, 0, 0, 1, 0, 0, []⟩

/-- A P-state step in progress (R387): none, waiting for the regulator (with the tries made and the change in mV), settling since
a timestamp, or gliding since a cycle. -/
inductive PStep where
  | idle
  | vout (up : Bool) (tries dv : Nat)
  | settle (up : Bool) (since dv : Nat)
  | glide (up : Bool) (since : Nat)
deriving DecidableEq, Repr

/-- The state of a region (R390, R391): off, waiting to wake or sleep, waking or sleeping since a timestamp and cycle, or on. -/
inductive Region where
  | off
  | waking (ts cyc : Nat)
  | on
  | sleeping (ts cyc : Nat)
deriving DecidableEq, Repr

/-- The Thermostat beside its registers (R387 to R413): its step, the ceiling a regulator failure leaves, the regions; the control
point, interval, power step, sample, calibration and ageing period last served, each as a count of its period; the tracked
level and the highest-ceiling work power of R399 in mW, PAVG in 1/1,000 mW; the duty ceilings of R404 by region and bin, the
running bin and its idle and total core cycles by region; the core the grants resume after; the throttle's state and the
timestamp of its last rise; the start of an unmet episode; periods above the high threshold; the modelled current in mA, the
ballast's part of it, the estimate's gain in 1/10,000; and the timestamp since which the shutdown sequence runs. -/
structure Therm where
  step : PStep
  avsCeil : Nat
  regions : Tbl Region
  control : Nat
  interval : Nat
  power : Nat
  sampled : Nat
  calAt : Nat
  ageAt : Nat
  level : Nat
  pavg : Nat
  duty : Tbl Nat
  force : Tbl Nat
  bin : Nat
  idle : Tbl Nat
  busy : Tbl Nat
  next : Nat
  hot : Bool
  thermCeil : Nat
  raised : Nat
  unmet : Option Nat
  high : Nat
  current : Nat
  ballast : Nat
  gain : Nat
  shutdown : Option Nat
deriving DecidableEq, Repr

/-- The Thermostat after PORST_N (R389). [DESIGN CHOICE, log 9] -/
def Therm.reset : Therm :=
  { step := .idle, avsCeil := 15, regions := [], control := 0, interval := 0, power := 0, sampled := 0, calAt := 0, ageAt := 0, level := 0, pavg := 0
    duty := [], force := [], bin := 0, idle := [], busy := [], next := 0, hot := false, thermCeil := 15, raised := 0, unmet := none, high := 0
    current := 0, ballast := 0, gain := 10000, shutdown := none }

/-- What self-test finds, or a fuse marks, of one unit (R426, R428, R446): the kind (0 core, 1 cube-column, 2 module, 3 bank),
physical row and column (or module number), SUB and CAUSE. -/
structure Finding where
  kind : Nat
  prow : Nat
  pcol : Nat
  sub : Nat
  cause : Nat
deriving DecidableEq, Repr

/-- The fuse array (R426), fixed for the life of the die: grade, absent rows, marked units, base voltages, M0, the ageing
thresholds, SIGN_REQ, KHASH, SECMIN and the serial number. `bad` is an uncorrectable shadow word. -/
structure Fuses where
  bad : Bool
  grade : Nat
  absent : List Nat
  defects : List Finding
  vbase : List Nat
  m0 : Nat
  low : Nat
  high : Nat
  signReq : Bool
  khash : BitVec 384
  secmin : Nat
  serial : BitVec 64
deriving DecidableEq, Repr

/-- The census's bad cores and cube-columns by physical position 64 × row + column, and the rows made absent (R429 to R432, R436). The
pass-throughs, the free spares and the N = 4 cores stand in the geometry table. -/
structure Grid where
  badCore : List Nat
  badCol : List (Nat × Nat)
  absent : List Nat
deriving DecidableEq, Repr

/-- Bring-up beside its registers (R417 to R440): PORST_N low, the always-on timer and timestamp at which the phase began, the
options, the firmware words, the check's cycle, and whether the reference and AON clock are present. -/
structure Boot where
  porst : Bool
  phaseTs : Nat
  opts : Word
  core0 : Nat
  limit : Nat
  fwtime : Nat
  expect : Word
  words : List (BitVec 64)
  fwAt : Nat
  done : List Nat
  firstCommit : Bool
  refOk : Bool
  aonRo : Bool
deriving DecidableEq, Repr

/-- Bring-up while PORST_N is low. [DESIGN CHOICE, log 9] -/
def Boot.reset : Boot :=
  { porst := true, phaseTs := 0, opts := 0x561, core0 := 0, limit := 0, fwtime := 0, expect := 0, words := [], fwAt := 0, done := []
    firstCommit := false, refOk := false, aonRo := false }

/-- One port's SPDM connection and mailbox (R470, R471): the stage of the exchange, the buffers, and the transcripts. -/
structure Spdm where
  stage : Nat
  busy : Bool
  req : List Byte
  resp : List Byte
  transA : List Byte
  transB : List Byte
  transM : List Byte
deriving DecidableEq, Repr

/-- A port's SPDM state after reset. -/
def Spdm.reset : Spdm := ⟨0, false, [], [], [], [], []⟩

/-- The management bus (R472, R473, R505): the dynamic address, the telemetry index, the AON count up to which an arm holds, and the
words the die returned last. -/
structure Bus where
  dynamic : Option (BitVec 7)
  index : BitVec 16
  armed : Option Nat
  out : List Word
deriving DecidableEq, Repr

/-- The bus after reset: no dynamic address. -/
def Bus.reset : Bus := ⟨none, 0, none, []⟩

/-- The levels of the die's management outputs (R532, R534, R540): `z` is high impedance. -/
inductive Level where
  | z | low | high
deriving DecidableEq, Repr

/-- The outputs that the TAP can drive and that no protocol here toggles (R534, R540, R407, R475). -/
structure Pins where
  pwrEn : Level
  thermtrip : Level
  alert : Level
  flSck : Level
  flCs : Level
  flReset : Level
  flIo : Level
  avsClk : Level
  avsMdata : Level
deriving DecidableEq, Repr

/-- The instructions of the TAP (R545). -/
inductive TapIr where
  | extest | sample | idcode | bypass
deriving DecidableEq, Repr

/-- The test access port (R545, R546): its instruction and the boundary-scan register, one bit for each covered bump, with what
it shifted out last. -/
structure Tap where
  ir : TapIr
  bsr : List Bool
  out : Nat
deriving DecidableEq, Repr

/-- The TAP after TRST_N: IDCODE. -/
def Tap.reset : Tap := ⟨.idcode, [], 0⟩

/-- A place where a wait is pending (R275): the head of a queue of the core, code 0 the sequencer, or a remote-wait entry. -/
inductive WaitPlace where
  | queue (q : Fin 6)
  | remote (i : Fin 16)
deriving DecidableEq, Repr

/-- A register that holds a shaper's RATE and BURST (R220): a source endpoint's, a DMA channel's, a Hallway shaper's, a module's
transit shaper's. [DESIGN CHOICE, log 102] -/
inductive ShaperPlace where
  | endpoint (c : CoreCode) (e : Fin 16)
  | channel (c : CoreCode) (ch : Fin 4)
  | hallway (c : CoreCode)
  | transit (m : Fin 48)
deriving DecidableEq, Repr

/-- What a Service request asks for (R501): a word read or written, lines read, or lines written under a bit mask for every byte, with the
words that follow the address in its address flit and the flits after that. -/
inductive SvcOp where
  | read
  | write (v : Word) (lines : List (BitVec 512)) (bad : Bool)
  | lines (nl : Nat)
  | put (sop nl : Nat) (data masks : List Byte) (ext : List (BitVec 64)) (flits : List (List (BitVec 64)))
deriving DecidableEq, Repr

/-- A Service request to a core window that waits: for a bank to wake when it has passed the checks of R502, else behind an earlier
request of the same requester to the same core (R161, R503). -/
structure Held where
  req : Req
  op : SvcOp
  checked : Bool
deriving DecidableEq, Repr

/-- A response the die has given (R500): the request, the status and the data. -/
structure Resp where
  req : Req
  st : Status
  data : List (BitVec 64)
deriving DecidableEq, Repr

/-- The die beside its queue of commands. -/
structure Die where
  cyc : Nat
  fresh : Tbl Fresh
  sub : Nat
  ts : BitVec 64
  aon : BitVec 64
  aonSub : Nat
  regs : Tbl Word
  cores : Tbl Core
  spares : Tbl Core
  routers : Tbl Router
  celIn : List (Nat × Flit)
  celAt : Option Nat
  celRx : List Flit
  offRx : List (Nat × Flit)
  mods : Tbl Module
  conns : Tbl Conn
  porchOff : List Nat
  hub : List HubReq
  openTx : Tbl (DieAddr × Nat)
  bars : Tbl Bar
  flog : List FEntry
  span : Span
  job : Job
  latch : Latch
  therm : Therm
  fuses : Fuses
  grid : Grid
  boot : Boot
  found : List Finding
  spdm : Tbl Spdm
  nonces : Nat
  pins : Pins
  shadow : Tbl Word
  held : List Held
  resps : List Resp
deriving DecidableEq, Repr

end Sys2Proof.Machine
end

