-- ==== Sys2Proof/Machine/DieOps.lean ====
section
/-! DEFINITION. The die at work: its registers, its clock, what cores see of it, and what faults and dirty marks do. -/

namespace Sys2Proof.Machine

/-! ### Registers of die control -/

/-- A stored register of die control, at its offset from 0x0001_0000_0000. -/
def Die.reg (d : Die) (off : Nat) : Word := tget (porchRegReset off) d.regs off

/-- A register of die control set. -/
def Die.setReg (d : Die) (off : Nat) (v : Word) : Die := { d with regs := tset (porchRegReset off) d.regs off v }

/-- A number stored as a register of die control. -/
def Die.setNat (d : Die) (off v : Nat) : Die := d.setReg off (BitVec.ofNat 32 v)

/-- Is a die-control register RC? (R16) -/
def dieRc (off : Nat) : Bool :=
  let within (lo hi : Nat) : Bool := decide (lo ≤ off) && decide (off ≤ hi)
  (within 0x81000 0x815FF && decide (0xC ≤ off % 32) && decide (off % 32 ≤ 0x18)) || within 0xC0034 0xC003F || within 0x1C0014 0x1C0017 ||
    within 0x240008 0x24000B || within 0x240010 0x24001F || within 0x240020 0x240037

/-- An event of this cycle noted on a register of die control (R17). -/
def Die.noteAt (d : Die) (off : Nat) (add : Word → Word) : Die := { d with fresh := noteFresh d.fresh d.cyc off (d.reg off) add }

/-- A counter of die control advanced, holding at 0xFFFF_FFFF (R17). -/
def Die.bump (d : Die) (off n : Nat) : Die :=
  (if n = 0 ∨ dieRc off = false then d else d.noteAt off (fun x => satAdd32 x n)).setReg off (satAdd32 (d.reg off) n)

/-- A W1C bit of a register of die control set by an event of this cycle (R17). -/
def Die.setFlag (d : Die) (off b : Nat) : Die :=
  (d.noteAt off (fun x => x ||| BitVec.ofNat 32 (put 1 b))).setReg off (d.reg off ||| BitVec.ofNat 32 (put 1 b))

/-- Bits [hi:lo] of a register. -/
def Die.rf (d : Die) (off hi lo : Nat) : Nat := fld (d.reg off) hi lo

/-- Bits [hi:lo] of a register replaced by `v`. -/
def Die.setF (d : Die) (off hi lo v : Nat) : Die :=
  d.setReg off (mergeMask (d.reg off) (BitVec.ofNat 32 (put (v % 2 ^ (hi - lo + 1)) lo)) (BitVec.ofNat 32 (put (2 ^ (hi - lo + 1) - 1) lo)))

/-- The die's address (R325). -/
def Die.addr (d : Die) : DieAddr := (d.reg 0x80000).setWidth 16

/-- Has the address been assigned? (R325) -/
def Die.addrSet (d : Die) : Bool := bit (d.reg 0x80000) 31

/-- PHASE of bring-up (R417). -/
def Die.phase (d : Die) : Nat := d.rf 0x140000 3 0

/-- PHASE of channel 31 (R357). -/
def Die.spanPhase (d : Die) : Nat := d.rf 0xC0000 2 0

/-- CUR of THM_PSTATE. -/
def Die.pstate (d : Die) : Nat := d.rf 0x100020 3 0

/-! ### Places -/

/-- The region of a core: band × 4 + stripe (R25, R26). -/
def regionOf (code : Nat) : Nat := 4 * (code / 64 / 12) + code % 64 / 12

/-- The index of a region row: 4 × row + stripe. -/
def regionRow (code : Nat) : Nat := 4 * (code / 64) + code % 64 / 12

/-- The index of R522: 48 × row + column. -/
def coreIndex (code : Nat) : Nat := 48 * (code / 64) + code % 64

/-- The core of an index of R522. -/
def coreOfIndex (k : Nat) : Nat := 64 * (k / 48) + k % 48

/-- Is a code that of a logical position? -/
def isCore (code : Nat) : Bool := decide (code / 64 < 48) && decide (code % 64 < 48)

/-- Is a logical row present? (R28, R522) -/
def Die.rowPresent (d : Die) (r : Nat) : Bool := if r < 32 then bit (d.reg 0x10010) r else bit (d.reg 0x10014) (r - 32)

/-- Does the geometry table show the core with N = 4? (R522) -/
def Die.n4 (d : Die) (code : Nat) : Bool := bit (d.reg (0x10140 + 4 * (coreIndex code / 32))) (coreIndex code % 32)

/-- The pass-through position of a region row (R430, R522). -/
def Die.passOf (d : Die) (rr : Nat) : Nat := d.rf (0x10080 + 4 * (rr / 4)) (8 * (rr % 4) + 3) (8 * (rr % 4))

/-- Is the spare of a region row free? (R522) -/
def Die.freeOf (d : Die) (rr : Nat) : Bool := bit (d.reg (0x10080 + 4 * (rr / 4))) (8 * (rr % 4) + 7)

/-- The physical column that serves a logical core (R522). -/
def Die.physCol (d : Die) (code : Nat) : Nat :=
  let j := code % 64 % 12
  13 * (code % 64 / 12) + (if j < d.passOf (regionRow code) then j else j + 1)

/-- Is a region on? (R390) -/
def Die.regionOn (d : Die) (r : Nat) : Bool := tget Region.off d.therm.regions r == Region.on

/-- Is the mesh domain on? It is switched on in phase POWER and off when the die halts or shuts down (R417, R418, R407). -/
def Die.meshOn (d : Die) : Bool := decide (3 ≤ d.phase) && decide (d.phase ≠ 15) && bit (d.reg 0x100064) 31 == false

/-- Has the die a core at work at this position: a logical position of a present row whose region is on? -/
def Die.coreOn (d : Die) (code : Nat) : Bool := isCore code && d.rowPresent (code / 64) && d.regionOn (regionOf code) && d.meshOn

/-- The small Pantry of a 1728L (R145, R522). -/
def Die.smallPantry (d : Die) : Bool := d.rf 0x10000 23 16 == 64

/-- Is the logical core a core of the job? (R525) -/
def Die.jobCore (d : Die) (code : Nat) : Bool :=
  isCore code && bit (nth 0 d.job.use (coreIndex code / 32)) (coreIndex code % 32)

/-- The learning controller's ceiling in force on a region, in 16ths (R404). -/
def Die.learnDuty (d : Die) (r : Nat) : Nat := tget 16 d.therm.force r

/-- The issue duty of a core: the die's and its region's ceiling (R402, R404, R405). -/
def Die.dutyOf (d : Die) (code : Nat) : Nat := min (d.rf 0x100020 20 16) (d.learnDuty (regionOf code))

/-- What a core reads of the die around it. -/
def Die.env (d : Die) (code : CoreCode) : Env :=
  let n := code.toNat
  { cyc := d.cyc, ts := d.ts, die := d.addr, code := code
    width := if d.n4 n then 4 else 8
    bypCol := (d.grid.badCol.find? (fun x => x.1 == 64 * (n / 64) + d.physCol n)).elim 0 (fun x => if d.n4 n then x.2 + 1 else 0)
    smallPantry := d.smallPantry
    elig := decide (n / 64 % 2 = 0) && d.rowPresent (n / 64) && !d.n4 n && !d.smallPantry
    wrap := bit (d.reg 0x40000) 0
    det := bit (d.reg 0xC0000) 31
    duty := d.dutyOf n
    span := d.reg 0xC0004
    absentRows := (List.range 48).filter (fun r => !d.rowPresent r)
    dieRegs := d.regs }

/-! ### Faults and dirty marks (R355, R359, R492 to R494) -/

/-- The order in which entries of one cycle enter the queue: severity, highest first, then SRC, then WHERE (R494).
[DEDUCED, log 104] -/
def FEntry.before (a b : FEntry) : Bool :=
  decide (a.at_ < b.at_) ||
    (decide (a.at_ = b.at_) && (decide (b.sev < a.sev) || (decide (a.sev = b.sev) &&
      (decide (a.src < b.src) || (decide (a.src = b.src) && decide (a.loc ≤ b.loc))))))

/-- An entry put in its place in the queue. [DEDUCED, log 104] -/
def insertEntry (e : FEntry) : List FEntry → List FEntry
  | [] => [e]
  | f :: fs => if f.before e then f :: insertEntry e fs else e :: f :: fs

/-- A fault reported: one entry into the log's queue, or one drop when it is full (R492, R494). [DEDUCED, log 104] -/
def Die.report (d : Die) (sev src loc : Nat) (st : Status) (ctx : Nat) : Die :=
  if 32 ≤ d.flog.length then d.bump 0x240008 1
  else
    { d with flog := insertEntry ⟨d.cyc, d.ts, sev, src, loc, st, ctx, if src ≤ 1 then d.physCol loc else 0, d.rf 0xC0004 15 0⟩ d.flog }

/-- A status recorded in a die-wide error register and reported, as R492 says of five of them. [DESIGN CHOICE, log 80] -/
def Die.recErr (d : Die) (off extra : Nat) (sev src loc : Nat) (st : Status) : Die :=
  ((d.setNat off (put extra 16 + st.toNat)).setFlag off 31).report sev src loc st 0

/-- A status recorded in PORCH_ERR for a module or connection (R341); `src` 6 is the die itself (R494). -/
def Die.porchErr (d : Die) (sev src m : Nat) (st : Status) : Die :=
  d.recErr 0x80004 (if src = 6 then 0 else m) sev src (if src = 6 then 0 else m) st

/-- A status recorded in CEL_BOOT_ERR with the phase (R418, R445). -/
def Die.bootErr (d : Die) (sev : Nat) (st : Status) : Die := d.recErr 0x140004 d.phase sev 6 0 st

/-- A status recorded in THM_ERR (R414). -/
def Die.thmErr (d : Die) (sev : Nat) (st : Status) : Die := d.recErr 0x100060 0 sev 6 0 st

/-- A status recorded in CTL_PORT_ERR with the port (R476, R494). -/
def Die.portErr (d : Die) (sev port : Nat) (st : Status) : Die := d.recErr 0x1C004C port sev 5 port st

/-- The word that CTL_SPAN_DIRTY holds for a mark (R377). [DESIGN CHOICE, log 80] -/
def Mark.word (m : Mark) : Word := BitVec.ofNat 32 (put 1 31 + put m.src 28 + put m.loc 16 + m.st.toNat)

/-- The running span marked dirty: the first mark of the attempt recorded; a mark raised after the die's arrival in FENCE, or in
another phase, held for the next attempt (R355, R359). -/
def Die.dirty (d : Die) (src loc : Nat) (st : Status) : Die :=
  let m : Mark := ⟨src, loc, st⟩
  let ph := d.spanPhase
  if ph = 1 ∧ d.span.arrived = false then
    if bit (d.reg 0xC0028) 31 then d else d.setReg 0xC0028 m.word
  else if 1 ≤ ph ∧ ph ≤ 4 then
    (if d.span.held.isSome then d else { d with span := { d.span with held := some m } })
  else d

/-- A fault that marks the span dirty. [DESIGN CHOICE, log 80] -/
def Die.spanFault (d : Die) (src loc : Nat) (st : Status) : Die := (d.dirty src loc st).report 1 src loc st 0

/-! ### Cores and routers -/

/-- A core. -/
def Die.core (d : Die) (code : Nat) : Core := tget .reset d.cores code

/-- A core replaced. -/
def Die.setCore (d : Die) (code : Nat) (c : Core) : Die := { d with cores := tset .reset d.cores code c }

/-- A router. -/
def Die.router (d : Die) (code : Nat) : Router := tget .reset d.routers code

/-- A router changed. -/
def Die.modRouter (d : Die) (code : Nat) (f : Router → Router) : Die :=
  { d with routers := tmod .reset d.routers code f }

/-- A flit put into a router's input register (R208). -/
def Die.enter (d : Die) (code port : Nat) (f : Flit) : Die :=
  d.modRouter code (fun r => { r with inq := tset [] r.inq port (tget [] r.inq port ++ [f]) })

/-- A module. -/
def Die.mod (d : Die) (m : Nat) : Module := tget .reset d.mods m

/-- A module changed. -/
def Die.modMod (d : Die) (m : Nat) (f : Module → Module) : Die := { d with mods := tmod .reset d.mods m f }

/-- A barrier channel. -/
def Die.bar (d : Die) (ch : Nat) : Bar := tget .reset d.bars ch

/-- A barrier channel changed. -/
def Die.modBar (d : Die) (ch : Nat) (f : Bar → Bar) : Die := { d with bars := tmod .reset d.bars ch f }

/-- The modules that a channel's CMASK names; channel 31's is the span plan's (R289, R357). -/
def Die.kidsOf (d : Die) (ch : Nat) : List Nat :=
  let lo := if ch = 31 then 0xC000C else 0x40104 + 16 * ch
  (List.range 48).filter (fun m => if m < 32 then bit (d.reg lo) m else bit (d.reg (lo + 4)) (m - 32))

/-- The channel's ROOT bit and its module towards the parent. -/
def Die.parentOf (d : Die) (ch : Nat) : Bool × Nat :=
  if ch = 31 then (bit (d.reg 0xC0008) 31, d.rf 0xC0008 29 24)
  else (bit (d.reg (0x40100 + 16 * ch)) 28, d.rf (0x40100 + 16 * ch) 27 22)

/-- Does the channel reach beyond this die? (R283, R289) -/
def Die.wide (d : Die) (ch : Nat) : Bool := ch == 31 || d.rf (0x40100 + 16 * ch) 30 29 != 0

/-- A barrier event queued on a module: in order of channel number, at most one of each channel and direction (R323). -/
def Module.queueEvent (m : Module) (bk ch : Nat) : Module :=
  let same (e : Nat × Nat) : Bool := e.2 == ch && ((e.1 == 0) == (bk == 0))
  { m with events := (m.events.filter (fun e => e.2 < ch || (e.2 == ch && !same e))) ++ [(bk, ch)] ++ m.events.filter (fun e => ch < e.2) }

/-- A barrier event sent on a module of role PEER or OPTICAL (R323). -/
def Die.sendEvent (d : Die) (m bk ch : Nat) : Die :=
  if d.rf (0x81000 + 32 * m) 9 8 % 2 = 1 then d.modMod m (fun x => x.queueEvent bk ch) else d

/-- An event sent to every child of a channel. -/
def Die.sendDown (d : Die) (ch bk : Nat) : Die := (d.kidsOf ch).foldl (fun d m => d.sendEvent m bk ch) d

/-- An event sent to the parent of a channel, unless this die is its root. -/
def Die.sendUp (d : Die) (ch bk : Nat) : Die :=
  let (root, pm) := d.parentOf ch
  if root then d else d.sendEvent pm bk ch

/-! ### A core at work inside the die -/

/-- One event of a core taken up by the die, but for a barrier's orphaning. -/
def Die.event (d : Die) (code : CoreCode) : Ev → Die
  | .fault sev st ctx => d.report sev 0 code.toNat st ctx
  | .dirty st => d.dirty 0 code.toNat st
  | .barArrive _ => d
  | .barOrphan _ => d
  | .timeDep => d.setReg 0xC0024 (d.reg 0xC0024 ||| 0x80000000)
  | .ceMem n => d.bump 0x240020 n
  | .ueMem n => d.bump 0x240024 n
  | .clash n => d.bump 0x240034 n
  | .noRoute => d.porchErr 0 6 0 St.NO_ROUTE
  | .inject port f => d.enter code.toNat port f
  | .shaped b => d.modRouter code.toNat (fun r => { r with shaper := b })

/-- `f` done on a core, and what it raised taken up, a barrier's orphaning aside. -/
def Die.runCore (d : Die) (code : CoreCode) (f : Wk → Wk) : Die × List Ev :=
  let w := f ⟨d.env code, d.core code.toNat, []⟩
  (w.evs.foldl (fun d e => d.event code e) (d.setCore code.toNat w.c), w.evs)

/-- The bound semaphore of a core that takes part in a channel orphaned (R287). -/
def Wk.orphanBound (ch : Nat) (w : Wk) : Wk :=
  let b := w.reg (0xD180 + 4 * ch)
  if bit (w.reg 0xD140) ch then
    match w.c.semPhys (fld b 7 6) (fld b 5 0) with
    | some p => if (w.c.sem p).orph then w else w.orphanSem p (fld b 7 6)
    | none => w
  else w

/-- The codes of the cores that have state. -/
def Die.codes (d : Die) : List CoreCode := ((tkeys d.cores).filter (fun n => decide (n < 4096))).map (BitVec.ofNat 12)

/-- A barrier channel orphaned: ORPH set, the span marked dirty and the fault reported (R286) for the core that left (`src` 0) or
the module on which another die's word of it came (`src` 4); every other taking-part core's bound semaphore orphaned; and the orphaning passed on beyond the die
(R287). [DESIGN CHOICE, log 80] [DESIGN CHOICE, log 131] -/
def Die.orphanBar (d : Die) (ch src loc : Nat) : Die :=
  if bit (d.reg (0x4010C + 16 * ch)) 31 then d
  else
    let d := d.setF (0x4010C + 16 * ch) 31 31 1
    let d := d.spanFault src loc St.ORPHANED
    let d := d.codes.foldl (fun d c => if src = 0 ∧ c.toNat = loc then d else (d.runCore c (Wk.orphanBound ch)).1) d
    if d.wide ch then (d.sendUp ch 2).sendDown ch 2 else d

/-- A core's work taken into the die whole. -/
def Die.onCore (d : Die) (code : CoreCode) (f : Wk → Wk) : Die :=
  let (d, evs) := d.runCore code f
  evs.foldl (fun d e => match e with
    | .barOrphan ch => d.orphanBar ch 0 code.toNat
    | _ => d) d

/-- A command on a core: nothing where the die has no core at work there (R29, R392). -/
def Die.atCore (d : Die) (code : CoreCode) (f : Wk → Wk) : Die := if d.coreOn code.toNat then d.onCore code f else d

/-- A register effect on a core that gives a status. -/
def Die.atCoreS (d : Die) (code : CoreCode) (f : Wk → Wk × Status) : Die × Status :=
  let r := f ⟨d.env code, d.core code.toNat, []⟩
  (d.onCore code (fun w => (f w).1), r.2)

/-- Every context of the die that is RUNNING or DRAINING makes this true (R193, R289, R341). -/
def Die.anyBusy (d : Die) : Bool := d.cores.any (fun e => (List.range 4).any (fun k => e.2.ctxBusy k))

/-- Is any context of a region RUNNING or DRAINING? (R391) -/
def Die.regionBusy (d : Die) (r : Nat) : Bool :=
  d.cores.any (fun e => regionOf e.1 == r && (List.range 4).any (fun k => e.2.ctxBusy k))

end Sys2Proof.Machine
end

