-- ==== Sys2Proof/Machine/Mesh.lean ====
section
/-! DEFINITION. The routers: header checks, routes, output arbitration, multicast forks and in-network reduction (R203 to R210,
R224 to R229, R235, R236, R549). -/

namespace Sys2Proof.Machine

/-! ### Routes (R204, R326, R329, R549) -/

/-- The flow key a flit travels by: of its link flit's source die when it is in transit, of this die otherwise (R326). -/
def Die.flitKey (d : Die) (f : Flit) : Nat :=
  flowKey (match f.transit with
    | some t => t.2.1
    | none => d.addr) f.h.src

/-- The edge router that a flow key uses at a module (R32, R326). -/
def edgeRouter (m f : Nat) : Nat :=
  let k := 4 * (m % 12) + f % 4
  match m / 12 with
  | 0 => k
  | 1 => 64 * k + 47
  | 2 => 64 * 47 + k
  | _ => 64 * k

/-- Is a flit for die control or for the Cellar, so that it leaves through the Cellar port: a Service request for an address of die
control, or a response to one of theirs? (R549) -/
def Flit.forDie (f : Flit) : Bool := f.port || (f.h.vc == 2 && f.h.kind == 5 && !f.h.far && fld (f.word 1) 47 32 == 1)

/-- The module a far flit is bound for: FAR with DEST[5:0], or a DEST row of 60 to 63 (R327, R329). -/
def Flit.farModule (f : Flit) : Option Nat :=
  if f.h.far then some (f.h.dest % 64)
  else if 60 ≤ f.h.dest / 64 then some (12 * (f.h.dest / 64 - 60) + f.h.dest % 64)
  else none

/-- Does a flit travel on a tree? (R207) -/
def Flit.onTree (f : Flit) : Bool := f.h.kind == 1 || (f.h.kind == 2 && f.h.vc == 1)

/-- The router a unicast flit makes for, and its exit port there. -/
def Die.goal (d : Die) (f : Flit) : Nat × Nat :=
  match f.farModule with
  | some m => (edgeRouter m (d.flitKey f), 5)
  | none => if f.forDie then (64 * 23 + 23, 6) else (f.h.dest, 0)

/-- The next output towards a router: along the row, then along the column (R204). -/
def hop (code to_ exit_ : Nat) : Nat :=
  if code % 64 < to_ % 64 then 2
  else if to_ % 64 < code % 64 then 4
  else if code / 64 < to_ / 64 then 3
  else if to_ / 64 < code / 64 then 1
  else exit_

/-- The output of a unicast flit at a router. -/
def Die.outOf (d : Die) (code : Nat) (f : Flit) : Nat := let g := d.goal f; hop code g.1 g.2

/-- The neighbour on a link port, and the port it is entered by. -/
def neighbour (code out : Nat) : Option (Nat × Nat) :=
  let r := code / 64
  let c := code % 64
  match out with
  | 1 => if 0 < r then some (code - 64, 3) else none
  | 2 => if c < 47 then some (code + 1, 4) else none
  | 3 => if r < 47 then some (code + 64, 1) else none
  | 4 => if 0 < c then some (code - 1, 2) else none
  | _ => none

/-! ### Queues -/

/-- The flits in an output's queue. -/
def Router.out (r : Router) (o : Nat) : List OutFlit := tget [] r.outq o

/-- The flits in an input register. -/
def Router.inp (r : Router) (p : Nat) : List Flit := tget [] r.inq p

/-- VC1 flits queued at an output. -/
def Router.vc1At (r : Router) (o : Nat) : Nat := (r.out o).countP (fun x => x.vc == 1)

/-- MESH_Q_HWM kept up to date (R239). -/
def Router.highWater (r : Router) (o : Nat) : Router :=
  let n := r.vc1At o
  if fld (r.reg 0x5004) 4 0 < n then r.setReg 0x5004 (BitVec.ofNat 32 (put o 8 + min n 24)) else r

/-- A flit put at the end of an output's queue. -/
def Router.push (r : Router) (o inp cyc : Nat) (f : Flit) : Router :=
  ({ r with outq := tset [] r.outq o (r.out o ++ [(⟨f.h.vc, inp, cyc, f⟩ : OutFlit)]) }).highWater o

/-- A flit with its header rewritten. -/
def Flit.withHdr (f : Flit) (h : Hdr) : Flit := { f with hdr := h.pack }

/-- Delivered to the local port on a tree, a flit names the tree's local sink endpoint (R224, R227, R239). -/
def Flit.toLocal (f : Flit) (o lep : Nat) : Flit := if o = 0 then f.withHdr { f.h with dep := lep } else f

/-- Copies of a tree that hold fork slots at an output (R224). -/
def Router.forkUse (r : Router) (o tree : Nat) : Nat :=
  (r.out o).countP (fun x => x.flit.h.vc == 1 && x.flit.h.kind == 1 && x.flit.h.dest % 64 == tree)

/-- Fork slots in use at an output, by every tree together (R208). -/
def Router.forkAll (r : Router) (o : Nat) : Nat := (r.out o).countP (fun x => x.flit.h.vc == 1 && x.flit.h.kind == 1)

/-- Fork slots that a tree reserves on each branch (R239). -/
def Router.forkSlots (r : Router) (tree : Nat) : Nat := min 3 (fld (r.reg (0x5104 + 8 * tree)) 26 24) + 1

/-- Has a branch a place for a copy: a fork slot the tree reserves, one of the output's 4, and one of its 24 VC1 slots? (R208, R224) -/
def Router.forkFree (r : Router) (o tree : Nat) : Bool :=
  decide (r.forkUse o tree < r.forkSlots tree) && decide (r.forkAll o < 4) && decide (r.vc1At o < 24)

/-- The outputs of a multicast tree at a router (R239). -/
def Router.branches (r : Router) (tree : Nat) : List Nat := (List.range 6).filter (fun o => bit (r.reg (0x5100 + 8 * tree)) (16 + o))

/-- The copy of a tree's flit that a branch sends. -/
def Router.copyTo (r : Router) (o : Nat) (f : Flit) : Flit := f.toLocal o (fld (r.reg (0x5100 + 8 * (f.h.dest % 64))) 3 0)

/-- The copies of a flit written to the outputs of `os` that have a place, and the outputs that have none (R224). -/
def Router.spread (r : Router) (p cyc : Nat) (f : Flit) (os : List Nat) : Router × List Nat :=
  os.foldl (fun (x : Router × List Nat) o =>
    if f.h.vc ≠ 1 ∨ x.1.forkFree o (f.h.dest % 64) then (x.1.push o p cyc (x.1.copyTo o f), x.2) else (x.1, x.2 ++ [o])) (r, [])

/-- A multicast flit written to every branch with a free slot, the flit held at the fork for the others (R224). -/
def Router.branch (r : Router) (p cyc : Nat) (f : Flit) : Router :=
  let x := r.spread p cyc f (r.branches (f.h.dest % 64))
  if x.2.isEmpty then x.1 else { x.1 with fork := x.1.fork ++ [⟨p, x.2, f⟩] }

/-- Copies held at forks that now find a slot. -/
def Router.unfork (r : Router) (cyc : Nat) : Router :=
  r.fork.foldl (fun r x =>
    let y := r.spread x.inp cyc x.flit x.outs
    if y.2.isEmpty then y.1 else { y.1 with fork := y.1.fork ++ [{ x with outs := y.2 }] }) { r with fork := [] }

/-- Flits in the fork buffer of an input (R224). -/
def Router.forkHeld (r : Router) (p : Nat) : Nat := r.fork.countP (fun x => x.inp == p)

/-- The children of a reduction tree in combining order (R227, R239). -/
def Router.children (r : Router) (tree : Nat) : List Nat :=
  let b := r.reg (0x5104 + 8 * tree)
  ((List.range 4).map (fun k => fld b (3 * k + 2) (3 * k))).takeWhile (fun c => c ≠ 7)

/-- The flits of one child that wait to be combined, oldest first. -/
def Router.childFlits (r : Router) (tree p : Nat) : List Flit :=
  (r.red.filter (fun x => x.tree == tree && x.port == p)).map (·.flit)

/-- Partial combinations of a tree: as many as the child with most flits waiting has (R228). -/
def Router.partials (r : Router) (tree : Nat) : Nat :=
  (r.children tree).foldl (fun a p => max a (r.childFlits tree p).length) 0

/-- Every tree's partial combinations together. -/
def Router.allPartials (r : Router) : Nat := (List.range 64).foldl (fun a t => a + r.partials t) 0

/-! ### A flit enters a router (R208, R235) -/

/-- What the header and payload check makes of a flit: the flit corrected, how many words were corrected, how many were
uncorrectable, and whether the header was. -/
def Flit.check (f : Flit) : Flit × Nat × Nat × Bool :=
  (List.range 9).foldl (fun (x : Flit × Nat × Nat × Bool) i =>
    match (tget WErr.clean x.1.err i).read with
    | .clean => x
    | .sym s e =>
      let g := if i = 0 then { x.1 with hdr := eccFix x.1.hdr s e }
        else { x.1 with pay := modNth x.1.pay (i - 1) (fun w => eccFix w s e) }
      ({ g with err := tset .clean g.err i .clean }, x.2.1 + 1, x.2.2.1, x.2.2.2)
    | .bad => ({ x.1 with err := tset .clean x.1.err i .poison }, x.2.1, x.2.2.1 + 1, x.2.2.2 || i == 0)) (f, 0, 0, false)

/-- A router register set with its bit 31, which is W1C, set by an event of cycle `cyc` (R16, R17). -/
def Router.mark (r : Router) (cyc off : Nat) (v : Word) : Router :=
  { r.setReg off (v ||| 0x80000000) with fresh := noteFresh r.fresh cyc off (r.reg off) (fun x => x ||| 0x80000000) }

/-- MESH_UE or RED_TAG recorded at a router (R229, R235, R239). [DESIGN CHOICE, log 51] -/
def Die.meshFault (d : Die) (code tree : Nat) (st : Status) : Die :=
  (d.modRouter code (fun r => r.mark d.cyc 0x5020 (BitVec.ofNat 32 (put tree 16 + st.toNat)))).spanFault 1 code st

/-- A flit taken out of an input register. -/
def Router.take (r : Router) (p : Nat) (f : Flit) : Router := { r with inq := tset [] r.inq p ((r.inp p).erase f) }

/-- Flits of VC0 or VC2 that an input has in the router's queues: it has 2 places for each (R208). -/
def Router.heldFrom (r : Router) (vc p : Nat) : Nat :=
  ((List.range 7).map (fun o => (r.out o).countP (fun x => x.vc == vc && x.inp == p))).foldl (· + ·) 0

/-- Does a child's next flit find a reduction slot: a partial combination that waits for it, or a new one within the tree's
reservation and the router's 8? (R228) -/
def Router.slotFree (r : Router) (tree p : Nat) : Bool :=
  decide ((r.childFlits tree p).length < r.partials tree) ||
    (decide (r.partials tree < fld (r.reg (0x5104 + 8 * tree)) 30 28 + 1) && decide (r.allPartials < 8))

/-- Is a flit on a tree that crosses the router? (R224, R227, R239) -/
def Router.treeOk (r : Router) (f : Flit) : Bool :=
  let a := r.reg (0x5100 + 8 * (f.h.dest % 64))
  bit a 31 && bit a 30 == (f.h.kind == 2)

/-- Has a router room for a flit in an input register, its header checked: a place in its buffer for VC0 and VC2; for VC1, which a full
fork buffer stops, a place in the output queue, or a reduction slot (R208, R224, R228). -/
def Die.hasRoom (d : Die) (code p : Nat) (f : Flit) : Bool :=
  let r := d.router code
  if f.h.vc = 3 then true
  else if f.h.vc ≠ 1 then decide (r.heldFrom f.h.vc p < 2)
  else if 4 ≤ r.forkHeld p then false
  else if f.onTree then
    if r.treeOk f = false ∨ f.h.kind = 1 then true
    else match r.children (f.h.dest % 64) with
      | [_] => decide (r.vc1At (fld (r.reg (0x5100 + 8 * (f.h.dest % 64))) 26 24) < 24)
      | _ => r.slotFree (f.h.dest % 64) p
  else decide (r.vc1At (d.outOf code f) < 24)

/-- The flit that enters from an input register: the oldest that has room, no flit going before an older one of its VC (R208, R212);
`no` are the VCs whose oldest flit waits. -/
def Die.nextIn (d : Die) (code p : Nat) : List Nat → List Flit → Option Flit
  | _, [] => none
  | no, f :: fs =>
    let c := f.check
    if c.2.2.2 then some f
    else if no.contains c.1.h.vc then d.nextIn code p no fs
    else if d.hasRoom code p c.1 then some f
    else d.nextIn code p (c.1.h.vc :: no) fs

/-- A checked flit written where it goes: the queue of its output, the branches of its tree, or a combination (R208, R224, R227). -/
def Die.place1 (d : Die) (code p : Nat) (f : Flit) (r : Router) : Router :=
  let tree := f.h.dest % 64
  let a := r.reg (0x5100 + 8 * tree)
  if f.h.vc = 3 then r
  else if f.onTree = false then r.push (d.outOf code f) p d.cyc f
  else if r.treeOk f = false then r
  else if f.h.kind = 1 then r.branch p d.cyc f
  else match r.children tree with
    | [_] => r.push (fld a 26 24) p d.cyc (f.toLocal (fld a 26 24) (fld a 3 0))
    | _ => { r with red := r.red ++ [⟨tree, p, f⟩] }

/-- ROUTER_HOP (R208, R224, R227, R228, R235): the oldest flit of an input register that has room checked and written into the queue of
its output, a fork or a combination. [DESIGN CHOICE, log 51] [DESIGN CHOICE, log 118] -/
def Die.routerHop (d : Die) (code p : Nat) : Die :=
  match d.nextIn code p [] ((d.router code).inp p) with
  | none => d
  | some f0 =>
    let (f, ce, ue, lost) := f0.check
    let d := d.modRouter code (fun r => let r := r.take p f0; if lost then r else d.place1 code p f r)
    let d := if ce = 0 then d else (d.modRouter code (fun r => r.bump d.cyc 0x500C ce)).bump 0x240028 ce
    if ue = 0 then d else ((d.modRouter code (fun r => r.bump d.cyc 0x5010 ue)).bump 0x24002C ue).meshFault code 0 St.MESH_UE

/-! ### Reduction (R227 to R229) -/

/-- Lane-by-lane FP32 addition of two payloads, with its events. -/
def addPayload (a b : List (BitVec 64)) : List (BitVec 64) × NumEv :=
  (a.zip b).foldl (fun (x : List (BitVec 64) × NumEv) p =>
    let (l, e1) := fAdd (p.1.setWidth 32) (p.2.setWidth 32)
    let (h, e2) := fAdd (p.1.extractLsb' 32 32) (p.2.extractLsb' 32 32)
    (x.1 ++ [h ++ l], (x.2.add e1).add e2)) ([], {})

/-- The sources whose values a flit carries. [DEDUCED, log 50] -/
def Flit.sources (f : Flit) : List Nat := if f.leaves.isEmpty then [16 * f.h.src + f.h.sep] else f.leaves

/-- Poison wherever either flit has an uncorrectable word. -/
def joinErr (a b : Tbl WErr) : Tbl WErr :=
  (List.range 9).foldl (fun t i => if (tget WErr.clean b i).read = .clean then t else tset .clean t i .poison) a

/-- The first waiting flit of a child taken away. -/
def Router.takeChild (r : Router) (tree p : Nat) : Router :=
  { r with red := match r.red.findIdx? (fun x => x.tree == tree && x.port == p) with
      | some i => r.red.eraseIdx i
      | none => r.red }

/-- REDUCTION_COMBINE: when one flit from every child is there and the parent queue has a place, their sum goes to the parent port;
inputs that differ in MSEQ or FIDX send nothing and record RED_TAG (R227 to R229). -/
def Die.combine (d : Die) (code tree : Nat) : Die :=
  let r := d.router code
  let a := r.reg (0x5100 + 8 * tree)
  let cs := r.children tree
  let fs := cs.filterMap (fun p => (r.childFlits tree p).head?)
  match fs with
  | f :: g :: rest =>
    if fs.length < cs.length ∨ bit a 31 = false ∨ bit a 30 = false then d
    else
      let taken (r : Router) : Router := cs.foldl (fun r p => r.takeChild tree p) r
      if (g :: rest).any (fun x => x.h.mseq != f.h.mseq || x.h.fidx != f.h.fidx) then
        (d.modRouter code taken).meshFault code tree St.RED_TAG
      else if 24 ≤ r.vc1At (fld a 26 24) then d
      else
        let (sum, ev) := (g :: rest).foldl (fun (x : Flit × NumEv) y =>
          let (v, e) := addPayload x.1.pay y.pay
          ({ x.1 with pay := v, err := joinErr x.1.err y.err, leaves := x.1.sources ++ y.sources }, x.2.add e)) (f, {})
        let o := fld a 26 24
        d.modRouter code (fun r => (((taken r).bump d.cyc 0x5014 ev.ovf).bump d.cyc 0x5018 ev.inv).push o (nth 0 cs 0) d.cyc (sum.toLocal o (fld a 3 0)))
  | _ => d

/-! ### Grants (R209, R210) -/

/-- The oldest of some queued flits, ties by input port. -/
def oldest (l : List OutFlit) : Option OutFlit :=
  l.foldl (fun b x => match b with
    | none => some x
    | some y => if x.at_ < y.at_ ∨ (x.at_ = y.at_ ∧ x.inp < y.inp) then some x else some y) none

/-- The outputs whose queues a VC1 flit takes a place in at a router; none for a child of a combination. -/
def Die.outsOf (d : Die) (code : Nat) (f : Flit) : List Nat :=
  let r := d.router code
  let tree := f.h.dest % 64
  if f.onTree = false then [d.outOf code f]
  else if f.h.kind = 1 then r.branches tree
  else match r.children tree with
    | [_] => [fld (r.reg (0x5100 + 8 * tree)) 26 24]
    | _ => []

/-- VC1 flits in a router's input registers that make for an output. -/
def Die.dueAt (d : Die) (code o : Nat) : Nat :=
  ((List.range 7).map (fun p => ((d.router code).inp p).countP (fun x => x.h.vc == 1 && (d.outsOf code x).contains o))).foldl (· + ·) 0

/-- Slots whose credit has not yet come back, because they came free in this cycle (R210). -/
def Router.goneAt (r : Router) (k cyc : Nat) : Nat := let g := tget (0, 0) r.gone k; if g.1 = cyc then g.2 else 0

/-- A slot that comes free in cycle `cyc`. -/
def Router.leave (r : Router) (k cyc : Nat) : Router := { r with gone := tset (0, 0) r.gone k (cyc, r.goneAt k cyc + 1) }

/-- The key of `gone` for a flit queued at an output. -/
def OutFlit.slot (x : OutFlit) (o : Nat) : Nat := if x.vc = 1 then o else 8 * (x.vc + 1) + x.inp

/-- Has the next place a slot for the flit: the buffer of its VC at the next input, the output queues it goes to there, or the fork buffer
of a tree's flit; at a Porch port, the module's egress queue? (R208, R210, R224, R320) [DESIGN CHOICE, log 51] -/
def Die.credit (d : Die) (code o : Nat) (f : Flit) : Bool :=
  match neighbour code o with
  | some (n, p) =>
    let r := d.router n
    let ahead := (r.inp p).countP (fun x => x.h.vc == f.h.vc)
    if f.h.vc = 1 then
      decide (r.forkHeld p + (r.inp p).countP (fun x => x.h.vc == 1 && x.h.kind == 1) < 4) && decide (ahead < 24) &&
        ((f.onTree && f.h.kind == 1) || (d.outsOf n f).all (fun o => decide (r.vc1At o + d.dueAt n o + r.goneAt o d.cyc < 24)))
    else decide (ahead + r.heldFrom f.h.vc p + r.goneAt (8 * (f.h.vc + 1) + p) d.cyc < 2)
  | none =>
    match o, f.farModule with
    | 5, some m => decide ((d.mod m).egress.countP (fun x => x.flit.h.vc == f.h.vc) < (if f.h.vc = 1 then 128 else 16))
    | _, _ => true

/-- The first input at or after the pointer, in the cyclic order of the router's inputs, that has a VC2 flit ready (R209).
[DESIGN CHOICE, log 52] -/
def rrPick (ptr : Nat) (l : List OutFlit) : Option OutFlit :=
  (List.range 7).findSome? (fun i => oldest (l.filter (fun x => x.inp == (ptr + i) % 7)))

/-- The flit an output grants now: VC0, then VC1, then VC2, among flits queued in earlier cycles (R209).
[DESIGN CHOICE, log 52] -/
def Router.choose (r : Router) (d : Die) (code o : Nat) : Option OutFlit :=
  let ready := (r.out o).filter (fun x => decide (x.at_ < d.cyc))
  let vc (n : Nat) := ready.filter (fun x => x.vc == n)
  let ok (x : Option OutFlit) : Option OutFlit := match x with
    | some y => if d.credit code o y.flit then some y else none
    | none => none
  (ok (oldest (vc 0))).or ((ok (oldest (vc 1))).or (ok (rrPick (tget 0 r.ptr o) (vc 2))))

/-- The inputs a router has: an edge router has the Porch port, the router of (23, 23) the Cellar port (R208, R549). -/
def hasInput (code p : Nat) : Bool :=
  if p = 5 then code / 64 == 0 || code / 64 == 47 || code % 64 == 0 || code % 64 == 47
  else if p = 6 then code == 64 * 23 + 23
  else p == 0 || (neighbour code p).isSome

/-- The input after one in the cyclic order of those the router has (R209). -/
def nextInput (code p : Nat) : Nat :=
  ((List.range 7).find? (fun i => hasInput code ((p + 1 + i) % 7))).elim 0 (fun i => (p + 1 + i) % 7)

/-- A status for a request that meets a core with no state to serve it (R29, R286, R392). [DEDUCED, log 62] -/
def Die.refuseAt (d : Die) (code : Nat) : Status := if d.rowPresent (code / 64) then St.REGION_OFF else St.NO_CORE

/-- The header of a Hallway message that the position of a core answers with, to a core of this die or of another; none where no route
leads there (R207, R326, R327). -/
def Die.hallHdr (d : Die) (code kind : Nat) (die : DieAddr) (core dep sep mseq : Nat) : Option Hdr :=
  if die = d.addr then some ⟨0, kind, true, false, core, dep, code, sep, mseq, 0⟩
  else (routeModule d.reg die (flowKey d.addr code)).map (fun m =>
    ⟨0, kind, true, true, 64 * (core / 64) + m.1, dep, code, sep, die.toNat, core % 64⟩)

/-- An answer put into the mesh at a position, or NO_ROUTE recorded. -/
def Die.hallBack (d : Die) (code : Nat) (h : Option Hdr) (ws : List (BitVec 64)) : Die :=
  match h with
  | some h => d.enter code 0 (Flit.mk' h ws)
  | none => d.porchErr 0 6 0 St.NO_ROUTE

/-- A flit of a line request at a position with no core at work: the first of its message is kept until the TAIL, which is answered with the
status of the place; lines that a read returns are dropped (R29, R392, R501). [DEDUCED, log 62] -/
def Die.turnAwayLine (d : Die) (code : Nat) (f : Flit) : Die :=
  let h := f.h
  let same (x : Nat × Flit) : Bool := x.1 == code && x.2.h.vc == 1 && x.2.h.src == h.src && x.2.h.sep == h.sep && x.2.h.mseq == h.mseq
  let first := ((d.offRx.find? same).map (·.2)).getD f
  let sop := fld (first.word 0) 63 56
  if h.tail = false then (if d.offRx.any same then d else { d with offRx := d.offRx ++ [(code, f)] })
  else
    let d := { d with offRx := d.offRx.filter (fun x => !same x) }
    if sop = 0x12 ∨ sop = 0x13 ∨ sop = 0x14 then
      d.hallBack code (d.hallHdr code 6 (BitVec.ofNat 16 (fld (first.word 0) 47 32)) h.src h.dep h.sep h.mseq)
        [svcWord0 0 0 d.addr (d.refuseAt code), first.word 1]
    else d

/-- What a position with no core at work answers: a line request with the status of the place, a wait or a claim with ORPHANED, and the last
flit of a stream message to an absent row with an acknowledgement that carries NO_CORE; any other flit is dropped (R29, R286, R392).
[DEDUCED, log 62] -/
def Die.turnAway (d : Die) (code : Nat) (f : Flit) : Die :=
  let h := f.h
  let mop := fld (f.word 0) 63 60
  if h.vc = 1 ∧ h.kind = 5 then d.turnAwayLine code f
  else if h.vc = 0 ∧ h.kind = 3 ∧ (mop = 2 ∨ mop = 4) then
    d.hallBack code (d.hallHdr code 3 (BitVec.ofNat 16 (fld (f.word 1) 63 48)) h.src 0 0 0)
      [syncWord0 (mop + 1) 0 0 0 false false (fld (f.word 0) 33 30), syncWord1 d.addr St.ORPHANED 0]
  else if h.vc = 1 ∧ h.kind < 3 ∧ h.tail ∧ d.rowPresent (code / 64) = false then
    d.hallBack code (d.hallHdr code 4 d.addr h.src h.sep h.dep h.mseq) [0, syncWord1 d.addr St.NO_CORE 0]
  else d

/-- A flit at the local port of a router: taken by the core, or, where no core is at work, dropped and answered (R29, R286, R392, R461,
R362). A Service request on VC2 waits at the position for its turn, since the router answers for its own registers there (R502).
[DEDUCED, log 62] [DESIGN CHOICE, log 63] -/
def Die.arrive (d : Die) (code : Nat) (f : Flit) : Die :=
  if d.coreOn code then
    if d.jobCore code ∧ f.h.vc ≠ 2 ∧ (d.job.state = 5 ∨ d.job.state = 6 ∨ d.spanPhase = 3) then d
    else d.setCore code { d.core code with rx := (d.core code).rx ++ [f] }
  else if f.h.vc = 2 ∧ f.h.kind = 5 then { d with offRx := d.offRx ++ [(code, f)] }
  else d.turnAway code f

/-! ### Registers of a module (R341) -/

/-- PORCH_MOD_CTL of a module, and the registers after it at +4i. -/
def modOff (m i : Nat) : Nat := 0x81000 + 32 * m + 4 * i

/-- STATE of a module (R315). -/
def Die.modState (d : Die) (m : Nat) : Nat := d.rf (modOff m 1) 2 0

/-- ROLE of a module: 0 none, 1 PEER, 2 HUB, 3 OPTICAL (R313). -/
def Die.role (d : Die) (m : Nat) : Nat := d.rf (modOff m 0) 9 8

/-- Flits discarded at a module and counted (R341). -/
def Die.discard (d : Die) (m n : Nat) : Die := d.bump (modOff m 6) n

/-- The reply that tells a requester how a hub request ended (R333), entering the mesh at the module's edge router.
[DESIGN CHOICE, log 69] -/
def Die.hubReply (d : Die) (q : HubReq) (st : Status) : Die :=
  d.enter (edgeRouter q.mod (flowKey d.addr q.src)) 5
    (Flit.mk' ⟨0, 6, true, false, q.src, 0, q.src, q.sep, q.mseq, 0⟩ [svcWord0 (if q.read then 0x12 else 0x13) 0 d.addr st, 0])

/-- A request of a HUB module that has FAILED, or whose flits wait for it, ends with LINK_DOWN at its last flit (R333). -/
def Die.linkDown (d : Die) (m : Nat) (f : Flit) : Die :=
  let h := f.h
  if d.role m = 2 ∧ h.kind = 5 ∧ h.tail then
    d.hubReply ⟨m, h.src, h.sep, h.mseq, h.fidx == 0 && fld (f.word 0) 63 56 == 0x12, 0, 0⟩ St.LINK_DOWN
  else d

/-- A granted flit leaves a router by an output; a FAILED module carries nothing (R315, R333). A response that leaves by the Cellar port is
the Cellar's from then on (R549). [DESIGN CHOICE, log 53] [DESIGN CHOICE, log 69] -/
def Die.send (d : Die) (code o : Nat) (f : Flit) : Die :=
  match neighbour code o with
  | some (n, p) => d.enter n p f
  | none =>
    if o = 5 then
      match f.farModule with
      | some m =>
        let l : LFlit := match f.transit with
          | some (dd, sd, _) => ⟨dd, sd, f⟩
          | none => ⟨BitVec.ofNat 16 f.h.mseq, d.addr, f⟩
        if d.modState m = 5 then (d.discard m 1).linkDown m f else d.modMod m (fun x => { x with egress := x.egress ++ [l] })
      | none => d
    else if o = 6 then (if f.port then d else { d with celRx := d.celRx ++ [f] })
    else d.arrive code f

/-- One flit granted at an output. -/
def Die.grantFlit (d : Die) (code o : Nat) (x : OutFlit) (aged : Bool) : Die :=
  let d := d.modRouter code (fun r =>
    { r.leave (x.slot o) d.cyc with
      outq := tset [] r.outq o ((r.out o).erase x), granted := tset 0 r.granted o (d.cyc + 1)
      ptr := if x.vc = 2 then tset 0 r.ptr o (nextInput code x.inp) else r.ptr
      aged := if aged then tset none r.aged o (some d.cyc) else r.aged } |>.unfork d.cyc)
  d.send code o x.flit

/-- An output's grant of this cycle (R209). -/
def Die.grantOut (d : Die) (code o : Nat) : Die :=
  let r := d.router code
  if tget 0 r.granted o = d.cyc + 1 then d
  else match r.choose d code o with
    | some x => d.grantFlit code o x false
    | none => d

/-- VC2_AGED_GRANT (R209): the oldest VC2 flit that has waited 256 cycles goes ahead of VC1, once in any 256 cycles.
[DESIGN CHOICE, log 52] -/
def Die.agedGrant (d : Die) (code o : Nat) : Die :=
  let r := d.router code
  let can : Bool := match tget none r.aged o with
    | some t => decide (t + 256 ≤ d.cyc)
    | none => true
  match oldest ((r.out o).filter (fun x => x.vc == 2 && decide (x.at_ + 256 ≤ d.cyc))) with
  | some x =>
    if can ∧ tget 0 r.granted o ≠ d.cyc + 1 ∧ ¬ ((r.out o).any (fun y => y.vc == 0 && decide (y.at_ < d.cyc))) ∧ d.credit code o x.flit then
      d.grantFlit code o x true
    else d
  | none => d

/-- The oldest VC1 flit of an input register that no older one keeps back, its header checked. -/
def Router.frontVc1 (r : Router) (p : Nat) : Option Flit :=
  ((r.inp p).map Flit.check).findSome? (fun c => match c with
    | (f, _, _, false) => if f.h.vc = 1 then some f else none
    | _ => none)

/-- Does a VC1 flit wait at a router in this cycle for want of a credit or a place, or is a fork buffer full? (R210, R224) -/
def Die.qfull (d : Die) (code : Nat) : Bool :=
  let r := d.router code
  (List.range 7).any (fun p =>
    decide (4 ≤ r.forkHeld p) ||
    (match r.frontVc1 p with
      | some f => !d.hasRoom code p f && !(r.treeOk f && f.onTree && f.h.kind == 2 && decide (2 ≤ (r.children (f.h.dest % 64)).length))
      | none => false) ||
    (match oldest ((r.out p).filter (fun x => decide (x.at_ < d.cyc) && x.vc == 1)) with
      | some y => !d.credit code p y.flit
      | none => false))

/-- Does a child's flit wait at a router in this cycle for a reduction slot? (R228) -/
def Die.slotStall (d : Die) (code : Nat) : Bool :=
  let r := d.router code
  (List.range 7).any (fun p => match r.frontVc1 p with
    | some f => f.onTree && f.h.kind == 2 && r.treeOk f && decide (r.forkHeld p < 4) &&
        decide (2 ≤ (r.children (f.h.dest % 64)).length) && !r.slotFree (f.h.dest % 64) p
    | none => false)

/-- A router's counts of one cycle: MESH_QFULL_CNT and MESH_RED_SLOT_STALL once in a cycle, and the backlog that still stands in
MESH_Q_HWM (R210, R224, R228, R239). [DESIGN CHOICE, log 51] -/
def Die.countMesh (d : Die) (code : Nat) : Die :=
  let full := d.qfull code
  let slot := d.slotStall code
  d.modRouter code (fun r =>
    let r := (List.range 7).foldl (fun r o => r.highWater o) r
    let r := if full then r.bump d.cyc 0x5008 1 else r
    if slot then r.bump d.cyc 0x501C 1 else r)

/-- Has a router nothing to do? -/
def Router.idle (r : Router) : Bool := r.outq.isEmpty && r.inq.isEmpty && r.fork.isEmpty

/-- What every router does in one cycle: its counts, then its grants. [DESIGN CHOICE, log 118] -/
def Die.grantAll (d : Die) : Die :=
  let d := d.routers.foldl (fun d e => if e.2.idle then d else d.countMesh e.1) d
  d.routers.foldl (fun d e => if e.2.outq.isEmpty then d else iter 7 (fun o d => d.grantOut e.1 o) d) d

/-- Flits that the Cellar or die control sends through the Cellar port (R549). [DESIGN CHOICE, log 122] -/
def Die.toPort (d : Die) (fs : List Flit) : Die := { d with celIn := d.celIn ++ fs.map (fun f => (d.cyc, f)) }

/-- CELLAR_PORT_FLIT (R549): the oldest flit that the Cellar or die control sent in an earlier cycle enters the router of (23, 23), one in
a cycle. -/
def Die.cellarFlit (d : Die) : Die :=
  match d.celIn with
  | (t, f) :: rest =>
    if t < d.cyc ∧ d.celAt ≠ some d.cyc then ({ d with celIn := rest, celAt := some d.cyc }).enter (64 * 23 + 23) 6 f else d
  | [] => d

/-! ### Router registers (R239, R512) -/

/-- DBG_PHYS (R510, R512). -/
def Die.dbgPhys (d : Die) (code : Nat) : Word :=
  BitVec.ofNat 32 (put (code / 64) 12 + put (d.physCol code) 6 + put (b2n (d.freeOf (regionRow code))) 5 + d.passOf (regionRow code))

/-- Is a block offset one of the router's? (R519) -/
def routerOff (off : Nat) : Bool :=
  (decide (0x5000 ≤ off) && decide (off < 0x5024)) || off == 0x5040 || (decide (0x5100 ≤ off) && decide (off < 0x5300))

/-- A router register as it reads. -/
def Die.viewRouter (d : Die) (code off : Nat) : Word :=
  if off = 0x5040 then d.dbgPhys code else if routerOff off then (d.router code).reg off else 0

/-- A write of a router register (R239); a write of MESH_HW_SHAPE refills the Hallway bucket (R220). -/
def Die.writeRouter (d : Die) (code off : Nat) (v : Word) : Die :=
  let keep (mask : Word) : Die := d.modRouter code (fun r => r.setReg off (mergeMask (r.reg off) v mask))
  if off = 0x5000 then
    (keep 0xFF0007FF).modRouter code (fun r => { r with shaper := Shaper.fill (r.reg 0x5000) d.cyc })
  else if off = 0x5020 then
    d.modRouter code (fun r => r.setReg off (r.reg off &&& ~~~(v &&& 0x80000000 &&& ~~~freshOf r.fresh d.cyc off)))
  else if 0x5100 ≤ off ∧ off < 0x5300 then keep (if off % 8 = 0 then 0xC73F000F else 0x77000FFF)
  else d

end Sys2Proof.Machine
end

