-- ==== Sys2Proof/Machine/Links.lean ====
section
/-! DEFINITION. Link modules: training, link flits, replay, barrier events, far messages and forwarding (R311 to R329). -/

namespace Sys2Proof.Machine

/-! ### The as-trained link table (R316) -/

/-- A module's entry of the as-trained link table set; PORCH_LT_GEN counts every change (R316). -/
def Die.setStat (d : Die) (m v : Nat) : Die :=
  if (d.reg (modOff m 1)).toNat = v then d
  else (d.setNat (modOff m 1) v).setNat 0x80008 ((d.rf 0x80008 15 0 + 1) % 65536)

/-- STATE changed, the trained figures kept only in ACTIVE and RETRAINING (R316). -/
def Die.setModState (d : Die) (m st : Nat) : Die :=
  d.setStat m (if st = 4 then (d.reg (modOff m 1)).toNat / 8 * 8 + 4 else st)

/-- A module's figures after training: x32, rate code, lanes repaired in each direction (R316). -/
structure Fit where
  x32 : Bool
  rate : Nat
  repTx : Nat
  repRx : Nat
deriving DecidableEq, Repr

/-- PORCH_MOD_STAT of an ACTIVE module. -/
def Fit.stat (f : Fit) : Nat := put (f.repRx % 16) 16 + put (f.repTx % 16) 12 + put (b2n f.x32) 7 + put (f.rate % 8) 4 + 3

/-- GT/s of a rate code; 6 and 7 are read as 5 (R314, R341). -/
def gts (code : Nat) : Nat := nth 32 [4, 8, 12, 16, 24, 32] code

/-- Width × rate of a trained module, in Gbit/s. -/
def statCapacity (v : Word) : Nat := (if bit v 7 then 32 else 64) * gts (fld v 6 4)

/-! ### Training (R314, R315, R322) -/

/-- The first width and rate that train, from MAXRATE at x64, then x32, down to MINRATE: bit 2 × code + (1 for x32) of `ok` says
that they train (R314). -/
def trainPick (maxr minr ok : Nat) : Option (Nat × Bool) :=
  ((List.range (maxr + 1)).reverse.filter (fun r => minr ≤ r ∨ r = maxr)).findSome? (fun r =>
    if ok.testBit (2 * r) then some (r, false) else if ok.testBit (2 * r + 1) then some (r, true) else none)

/-- MODULE_TRAINING (R314): a module in TRAINING becomes ACTIVE at the first setting that trains, or FAILED with LINK_TRAIN. -/
def Die.train (d : Die) (m ok rt rr : Nat) : Die :=
  if d.modState m ≠ 2 then d
  else
    let maxr := min 5 (d.rf (modOff m 0) 2 0)
    match trainPick maxr (min 5 (d.rf (modOff m 0) 6 4)) ok with
    | some (r, x32) => (d.modMod m (fun x => { Module.reset with events := x.events, shaper := x.shaper })).setStat m (Fit.stat ⟨x32, r, rt, rr⟩)
    | none => (d.setModState m 5).porchErr 0 2 m St.LINK_TRAIN

/-- A module powered down: its buffers are lost, its transit shaper keeps its tokens (R220). -/
def Die.modOff' (d : Die) (m : Nat) : Die := (d.setModState m 1).modMod m (fun x => { Module.reset with shaper := x.shaper })

/-- Is the Porch domain of a module's edge on? (R34, R313, R439) [DEDUCED, log 133] -/
def Die.porchOn (d : Die) (m : Nat) : Bool := !d.porchOff.contains (m / 12)

/-- MODULE_EN_WRITE (R315, R340): EN = 0 powers the module down, EN = 1 of a module that is OFF starts its training; a module that changes
its state so while a job runs leaves the span dirty. An edge's Porch domain is on again once a module of it has a role (R313).
[DESIGN CHOICE, log 68] [DEDUCED, log 133] -/
def Die.modEn (d : Die) (m : Nat) (v : Word) : Die :=
  if d.modState m = 0 then d
  else
    let d := d.setReg (modOff m 0) (mergeMask (d.reg (modOff m 0)) v 0x80000377)
    let d := if d.role m = 0 then d else { d with porchOff := d.porchOff.filter (· ≠ m / 12) }
    if bit v 31 = false then (if 3 ≤ d.modState m ∧ d.modState m ≤ 4 then d.dirty 2 m St.LINK_CHANGED else d).modOff' m
    else if d.modState m = 1 ∧ d.porchOn m ∧ ¬ (d.role m = 0 ∧ bit (d.reg 0x140034) 31) then d.setModState m 2
    else d

/-- A PHY retrain starts, by RETRAIN, by the peer or by eight resends in a row (R311, R322). -/
def Die.retrain (d : Die) (m : Nat) : Die := if d.modState m = 3 then d.setModState m 4 else d

/-- Is a trained width or rate lower than the one before? (R322) -/
def statLower (new old : Word) : Bool := (bit new 7 && !bit old 7) || decide (fld new 6 4 < fld old 6 4)

/-- RETRAIN_COMPLETE (R322, R333): the module resumes, with LINK_CHANGED at a lower width or rate, or fails with LINK_DOWN. -/
def Die.retrainDone (d : Die) (m : Nat) (r : Option Fit) : Die :=
  if d.modState m ≠ 4 then d
  else match r with
    | some f =>
      let old := d.reg (modOff m 1)
      let d := d.setStat m f.stat
      let d := d.modMod m (fun x => { x with resends := 0, resendFrom := if x.replay.isEmpty then none else some 0 })
      if statLower (d.reg (modOff m 1)) old then
        (d.dirty 2 m St.LINK_CHANGED).porchErr 1 2 m St.LINK_CHANGED
      else d
    | none =>
      let x := d.mod m
      let d := (d.setModState m 5).discard m (x.replay.length + x.egress.length + x.opened.toList.length)
      let d := d.modMod m (fun x => { x with replay := [], egress := [], opened := none, resendFrom := none })
      let qs := d.hub.filter (fun q => q.mod == m)
      let d := { d with hub := d.hub.filter (fun q => q.mod != m) }
      let d := qs.foldl (fun d q => d.hubReply q St.LINK_DOWN) d
      let d := x.egress.foldl (fun d l => d.linkDown m l.flit) d
      (d.dirty 2 m St.LINK_DOWN).porchErr 1 2 m St.LINK_DOWN

/-! ### The link flit (R317 to R319) -/

/-- CRC-16 over the bits of a number from `n − 1` down to 0: polynomial 0x1021, start 0xFFFF (R319). -/
def crc16 (n x : Nat) : Nat :=
  (List.range n).foldl (fun c i =>
    let b := (c / 32768 % 2) ^^^ (x / 2 ^ (n - 1 - i) % 2)
    let c := c * 2 % 65536
    if b = 1 then c ^^^ 0x1021 else c) 0xFFFF

/-- The codeword of a data word in an error state (R162, R165); the pattern of an uncorrectable word differs from its check
symbols in the first and second (R165). [DEDUCED, log 67] -/
def codeword (w : BitVec 64) (e : WErr) : Nat :=
  let c := eccCheck w
  w.toNat + put (match e with
    | .clean => c
    | .disc x => c ^^^ x
    | .poison => c ^^^ 0x011).toNat 64

/-- The WORDS, DDIE, SDIE, LSEQ and event fields of a link flit (R317). [DEDUCED, log 67] -/
def linkBody (l : LFlit) (lseq : Nat) (ev : Option (Nat × Nat)) : BitVec 768 :=
  let words := (List.range 9).foldl (fun a j =>
    a + put (codeword (if j = 0 then l.flit.hdr else l.flit.word (j - 1)) (tget .clean l.flit.err j)) (84 + 76 * j)) 0
  BitVec.ofNat 768 (words + put l.ddie.toNat 68 + put l.sdie.toNat 52 + put (lseq % 1024) 42
    + (match ev with
      | some (bk, ch) => put 1 23 + put bk 21 + put ch 16
      | none => 0))

/-- A link flit of VC 0b11: all payload codewords zero (R318). -/
def bareFlit (kind : Nat) : LFlit := ⟨0, 0, ⟨BitVec.ofNat 64 (put 3 62 + put kind 59), List.replicate 8 0, [], [], none, false⟩⟩

/-- A link flit completed with LACK, the credit count of one VC and the CRC (R317, R320). -/
def linkFlit (body : BitVec 768) (lack cvc ccnt : Nat) : BitVec 768 :=
  let x := body.toNat + put (lack % 1024) 32 + put cvc 30 + put (ccnt % 64) 24
  BitVec.ofNat 768 (x + crc16 752 (x / 65536))

/-- A flit put on the wires: LACK and the next VC's credits with it, or a replay request (R320, R321). [DESIGN CHOICE, log 73] -/
def Module.emit (x : Module) (body : BitVec 768) (request : Bool) : Module :=
  let lack := (x.rxSeq + 1023) % 1024
  if request then { x with wire := some (linkFlit body lack 3 1), askReplay := false }
  else { x with wire := some (linkFlit body lack x.cvc (tget 0 x.freed x.cvc)), cvc := (x.cvc + 1) % 3 }

/-- A new sequenced flit: kept in the replay buffer and sent (R321). -/
def Module.sendSeq (x : Module) (l : LFlit) (cyc : Nat) : Module :=
  let body := linkBody l x.txSeq x.events.head?
  { x with txSeq := (x.txSeq + 1) % 1024, replay := x.replay ++ [(⟨x.txSeq, body, cyc, 0⟩ : Sent)], events := x.events.tail }.emit body false

/-! ### Far headers (R327, R329) -/

/-- A flit with FAR = 0, its new DEST, MSEQ and FIDX. [DESIGN CHOICE, log 53] -/
def Flit.wireHdr (f : Flit) (dest mseq fidx dep : Nat) : Flit :=
  { f with hdr := { f.h with far := false, dest := dest, mseq := mseq, fidx := fidx, dep := dep }.pack, transit := none, leaves := [] }

/-- The key under which an edge holds an open DMA message. -/
def openKey (m : Nat) (h : Hdr) : Nat := (((m / 12) * 4096 + h.src) * 16 + h.sep) * 65536 + h.mseq

/-- What the sending Porch makes of a flit (R327, R329): the flit as it goes on the wire, `none` when no far-stream entry
matches. Messages of more than one flit keep their destination until TAIL. -/
def Die.toWire (d : Die) (m : Nat) (l : LFlit) : Option (Die × LFlit) :=
  let f := l.flit
  let h := f.h
  match f.transit with
  | some (dd, sd, dest) => some (d, ⟨dd, sd, f.wireHdr dest h.mseq h.fidx h.dep⟩)
  | none =>
    if h.far = false then
      let e := 0x84080 + 256 * m + 8 * (h.dep % 16)
      if bit (d.reg e) 31 then
        some (d, ⟨(d.reg e).setWidth 16, d.addr, f.wireHdr (d.rf (e + 4) 15 4) d.addr.toNat 0 (d.rf (e + 4) 3 0)⟩)
      else none
    else if h.vc = 1 ∧ h.kind = 5 then
      let k := openKey m h
      let (ddie, core) := match d.openTx.find? (fun e => e.1 == k) with
        | some e => e.2
        | none => (BitVec.ofNat 16 (fld (f.word 1) 63 48), fld (f.word 1) 31 20)
      let t := d.openTx.filter (fun e => e.1 != k)
      some ({ d with openTx := if h.tail then t else t ++ [(k, (ddie, core))] }, ⟨ddie, d.addr, f.wireHdr core h.mseq h.fidx h.dep⟩)
    else if h.kind < 3 then
      let e := 0x84000 + 256 * m + 8 * (h.dep % 16)
      if bit (d.reg e) 31 then
        some (d, ⟨(d.reg e).setWidth 16, d.addr, f.wireHdr (d.rf (e + 4) 15 4) h.mseq h.fidx (d.rf (e + 4) 3 0)⟩)
      else none
    else
      some (d, ⟨BitVec.ofNat 16 h.mseq, d.addr, f.wireHdr (64 * (h.dest / 64) + h.fidx % 64) d.addr.toNat 0 h.dep⟩)

/-- FS_MISS recorded at a module: the flit is discarded and counted, and the span is dirty (R329). -/
def Die.fsMiss (d : Die) (m : Nat) : Die :=
  ((d.discard m 1).dirty 2 m St.FS_MISS).porchErr 1 2 m St.FS_MISS

/-! ### Long-reach packets (R334 to R337) -/

/-- A connection. -/
def Die.conn (d : Die) (c : Nat) : Conn := tget .reset d.conns c

/-- A connection changed. -/
def Die.modConn (d : Die) (c : Nat) (f : Conn → Conn) : Die := { d with conns := tmod .reset d.conns c f }

/-- The register of a connection: 0 CTL, 1 TSEQ, 2 RSEQ, 3 TMR. -/
def connOff (c i : Nat) : Nat := 0x88000 + 32 * c + 4 * i

/-- The enabled connection whose peer is a die, which a packet's header names (R335). -/
def Die.connTo (d : Die) (a : DieAddr) : Option Nat :=
  findIdxFrom (fun c => bit (d.reg (connOff c 0)) 31 && (d.reg (connOff c 0)).setWidth 16 == a) 0 64

/-- The enabled connection that the routing entry of a die names (R326, R334). -/
def Die.connFor (d : Die) (a : DieAddr) : Option Nat :=
  match routeEntry d.reg a with
  | some (true, c) => if bit (d.reg (connOff c 0)) 31 then some c else none
  | _ => none

/-- WIN of a connection, within 16 to 16,384 (R341). -/
def Die.connWin (d : Die) (c : Nat) : Nat := max 16 (min 16384 (d.rf (connOff c 3) 26 12))

/-- The module that carries a connection's own headers: the first of its group. [DESIGN CHOICE, log 66] -/
def Die.connModule (d : Die) (c : Nat) : Option Nat := (groupModules d.reg (d.rf (connOff c 0) 27 24)).head?

/-- A packet's header flit (R335). -/
def Die.packetHdr (d : Die) (c tseq cnt : Nat) (nak : Bool) : LFlit :=
  let b := bareFlit 2
  ⟨(d.reg (connOff c 0)).setWidth 16, d.addr, { b.flit with pay := [BitVec.ofNat 64 (put tseq 32 + put cnt 28),
    BitVec.ofNat 64 (put (d.reg (connOff c 2)).toNat 32 + b2n nak)] ++ List.replicate 6 0 }⟩

/-! ### Sending (R318, R320, R321, R323) -/

/-- The queue of a VC at the Landing: 16, 128 and 16 link flits (R320). -/
def landing (vc : Nat) : Nat := if vc = 1 then 128 else 16

/-- Does a module hold a credit for a flit? Transport headers need none (R320, R335). -/
def Module.creditFor (x : Module) (f : Flit) : Bool := f.h.vc == 3 || decide (tget 0 x.used f.h.vc < landing f.h.vc)

/-- Would a flit open a DMA message on an edge that holds its 64 already? (R327) -/
def Die.edgeFull (d : Die) (m : Nat) (l : LFlit) : Bool :=
  let h := l.flit.h
  let k := openKey m h
  l.flit.transit.isNone && h.far && h.vc == 1 && h.kind == 5 && !d.openTx.any (fun e => e.1 == k) &&
    decide (64 ≤ d.openTx.countP (fun e => e.1 / 2 ^ 32 == m / 12))

/-- Can the first flit of a VC in the egress queues go: credit for it, a place among the requests of a HUB module or the open messages of
the edge, and room in the window of its connection? (R320, R327, R331, R336) -/
def Die.canGo (d : Die) (m : Nat) (l : LFlit) : Bool :=
  (d.mod m).creditFor l.flit &&
    (if d.role m = 2 then l.flit.h.kind != 5 || decide (d.hub.countP (fun q => q.mod == m) < 1024)
    else !d.edgeFull m l && (d.role m != 3 || (match (d.toWire m l).bind (fun x => d.connFor x.2.ddie) with
      | some c => bit (d.reg (connOff c 0)) 30 || decide ((d.conn c).unacked.length < d.connWin c)
      | none => true)))

/-- The next flit of the egress queues that can go: VC0 first, then VC1, then VC2, each VC in order. [DESIGN CHOICE, log 65] -/
def Die.nextOut (d : Die) (m : Nat) : Option LFlit :=
  [0, 1, 2].findSome? (fun vc => ((d.mod m).egress.find? (fun l => l.flit.h.vc == vc)).filter (fun l => d.canGo m l))

/-- What a connection has to send on a module beside new packets: a header of its own, or the next packet that is sent again
(R335, R336). [DESIGN CHOICE, log 66] -/
def Die.connWork (d : Die) (m : Nat) : Option (Nat × Option (Nat × Unacked)) :=
  if d.role m ≠ 3 then none
  else (List.range 64).findSome? (fun c =>
    let k := d.conn c
    if !k.control.isEmpty && d.connModule c == some m then some (c, none)
    else match k.resend.bind (fun i => (k.unacked[i]?).map (fun u => (i, u))) with
      | some (i, u) => if u.mod = m ∧ (d.mod m).creditFor u.flit.flit then some (c, some (i, u)) else none
      | none => none)

/-- May a module send a new sequenced flit? -/
def Die.maySend (d : Die) (m : Nat) : Bool := d.modState m == 3 && decide ((d.mod m).replay.length < 256)

/-- A data flit sent on a module, a credit spent (R320). -/
def Die.sendData (d : Die) (m : Nat) (sent : LFlit) : Die :=
  d.modMod m (fun x => { x with used := tset 0 x.used sent.flit.h.vc (tget 0 x.used sent.flit.h.vc + 1) }.sendSeq sent d.cyc)

/-- A flit taken out of a module's egress queues. -/
def Die.dropOut (d : Die) (m : Nat) (l : LFlit) : Die := d.modMod m (fun x => { x with egress := x.egress.erase l })

/-- A packet's header sent on a module, its data flit to follow (R335). -/
def Die.sendPacket (d : Die) (m c tseq : Nat) (w : LFlit) : Die :=
  (d.modMod m (fun x => { x with opened := some w }.sendSeq (d.packetHdr c tseq 1 false) d.cyc)).modConn c (fun k => { k with since := 0 })

/-- A header of a connection's own sent on a module, or the header of a packet that is sent again (R336). -/
def Die.sendConn (d : Die) (m c : Nat) : Option (Nat × Unacked) → Die
  | none => (d.modMod m (fun x => x.sendSeq (d.packetHdr c 0 0 ((d.conn c).control.headD false)) d.cyc)).modConn c (fun k =>
      { k with control := k.control.tail, since := 0 })
  | some (i, u) => (d.sendPacket m c u.tseq u.flit).modConn c (fun k =>
      { k with unacked := modNth k.unacked i (fun u => { u with at_ := d.ts.toNat }), resend := if i + 1 < k.unacked.length then some (i + 1) else none })

/-- A hub request noted as it leaves: its last flit is TAIL; at most 1,024 are outstanding on a module (R331). -/
def Die.noteHub (d : Die) (m : Nat) (f : Flit) : Die :=
  let h := f.h
  let sop := fld (f.word 0) 63 56
  if h.tail ∧ (h.kind = 5) then
    { d with hub := d.hub ++ [⟨m, h.src, h.sep, h.mseq, h.fidx == 0 && sop == 0x12, fld (f.word 0) 54 52 + 1, d.ts.toNat⟩] }
  else d

/-- A new flit of an OPTICAL module: a packet of one data flit through the connection its routing entry names; without one, or when it has
failed, the flit is discarded and counted (R334 to R337). [DESIGN CHOICE, log 66] -/
def Die.sendFar (d : Die) (m : Nat) (w : LFlit) : Die :=
  match d.connFor w.ddie with
  | none => d.discard m 1
  | some c =>
    if bit (d.reg (connOff c 0)) 30 then d.discard m 1
    else
      let seq := (d.reg (connOff c 1)).toNat
      ((d.setNat (connOff c 1) (seq + 1)).modConn c (fun k => { k with unacked := k.unacked ++ [⟨seq, w, d.ts.toNat, m⟩] })).sendPacket m c seq w

/-- LINK_FLIT_SEND (R320, R321, R331, R335): an outstanding flit that a resend has reached, the data flit of an open packet, a header of a
connection or a packet sent again, or the next flit of the egress queues. [DESIGN CHOICE, log 65] [DESIGN CHOICE, log 66] -/
def Die.linkSend (d : Die) (m : Nat) : Die :=
  let x := d.mod m
  if d.modState m ≠ 3 then d
  else match x.resendFrom with
  | some i =>
    match x.replay[i]? with
    | some s => d.modMod m (fun x => { x with replay := modNth x.replay i (fun s => { s with at_ := d.cyc })
                                              resendFrom := if i + 1 < x.replay.length then some (i + 1) else none }.emit s.body false)
    | none => d.modMod m (fun x => { x with resendFrom := none })
  | none =>
    if d.maySend m = false then d
    else match x.opened with
    | some w => (d.modMod m (fun x => { x with opened := none })).sendData m w
    | none =>
      match d.connWork m with
      | some (c, r) => d.sendConn m c r
      | none =>
        match d.nextOut m with
        | none => d
        | some l =>
          if d.role m = 2 then ((d.noteHub m l.flit).dropOut m l).sendData m ⟨d.addr, d.addr, l.flit⟩
          else match d.toWire m l with
          | none => (d.dropOut m l).fsMiss m
          | some (d', w) => if d.role m = 3 then (d'.dropOut m l).sendFar m w else (d'.dropOut m l).sendData m w

/-- Is a data flit or a packet header ready to go on a module? (R323) -/
def Die.ready (d : Die) (m : Nat) : Bool :=
  (d.mod m).resendFrom.isSome || (d.mod m).opened.isSome || (d.connWork m).isSome || (d.nextOut m).isSome

/-- NULL_FLIT_SEND (R323): a barrier event pending and no data flit ready. -/
def Die.nullSend (d : Die) (m : Nat) : Die :=
  let x := d.mod m
  if d.maySend m = false ∨ d.ready m ∨ x.events.isEmpty then d
  else d.modMod m (fun x => x.sendSeq (bareFlit 1) d.cyc)

/-- IDLE_FLIT_SEND (R318, R321): no data or null flit ready; a replay request goes in one. -/
def Die.idleSend (d : Die) (m : Nat) : Die :=
  let x := d.mod m
  if d.modState m ≠ 3 ∨ (x.askReplay = false ∧ (d.ready m ∨ !x.events.isEmpty)) then d
  else d.modMod m (fun x => x.emit (linkBody (bareFlit 0) x.txSeq none) x.askReplay)

/-- A sender goes back to its oldest outstanding flit (R321, R322). -/
def Die.resend (d : Die) (m : Nat) : Die :=
  let x := d.mod m
  if x.replay.isEmpty then d
  else
    let twice := x.replay.any (fun s => 1 ≤ s.again)
    let d := (d.modMod m (fun x => { x with resendFrom := some 0, resends := x.resends + 1
                                            replay := x.replay.map (fun s => { s with again := s.again + 1, at_ := d.cyc }) })).bump (modOff m 5) 1
    let d := if twice then (d.dirty 2 m St.LINK_REPLAY).porchErr 1 2 m St.LINK_REPLAY else d
    if 8 ≤ x.resends + 1 then d.retrain m else d

/-- REPLAY_REQUEST (R321): a replay request that has been received is served. -/
def Die.replayRequest (d : Die) (m : Nat) : Die :=
  if (d.mod m).asks then (d.modMod m (fun x => { x with asks := false })).resend m else d

/-- Have `n` flit times of a module passed since a cycle? (R324) [DEDUCED, log 64] -/
def Die.flitTimes (d : Die) (m n since : Nat) : Bool :=
  decide (n * 768 * (6 + d.pstate) * 200 ≤ (d.cyc - since) * 3000 * statCapacity (d.reg (modOff m 1)))

/-- REPLAY_TIMEOUT (R321): the oldest outstanding flit has waited 256 flit times. -/
def Die.replayTimeout (d : Die) (m : Nat) : Die :=
  match (d.mod m).replay with
  | s :: _ => if d.modState m = 3 ∧ d.flitTimes m 256 s.at_ then d.resend m else d
  | [] => d

/-! ### Receiving (R313, R318 to R321, R325, R328, R329) -/

/-- A slot of a Landing ingress queue freed (R320). -/
def Module.freeSlot (x : Module) (vc : Nat) : Module := { x with freed := tset 0 x.freed vc ((tget 0 x.freed vc + 1) % 64) }

/-- A discarded flit's role is not the module's (R313). [DESIGN CHOICE, log 68] -/
def Die.badRole (d : Die) (m : Nat) : Die := (d.discard m 1).porchErr 0 2 m St.LINK_ROLE

/-- A NO_ROUTE answer to a Service request, on the module it came by (R328, R503). [DEDUCED, log 71] -/
def Die.noRouteReply (d : Die) (m : Nat) (l : LFlit) : Die :=
  let h := l.flit.h
  let f := Flit.mk' ⟨2, 6, true, false, h.src, h.sep, h.dest, h.dep, d.addr.toNat, 0⟩
    [svcWord0 (fld (l.flit.word 0) 63 56) 0 (BitVec.ofNat 16 (fld (l.flit.word 0) 47 32)) St.NO_ROUTE, l.flit.word 1]
  d.modMod m (fun x => { x with egress := x.egress ++ [⟨l.sdie, d.addr, { f with transit := some (l.sdie, d.addr, h.src) }⟩] })

/-- A flit with no route from a module (R328). [DEDUCED, log 71] -/
def Die.noRoute (d : Die) (m : Nat) (l : LFlit) : Die :=
  let d := d.porchErr 0 2 m St.NO_ROUTE
  if l.flit.h.vc = 2 ∧ l.flit.h.kind = 5 then d.noRouteReply m l else d.discard m 1

/-- The router a flit that arrives on a module enters at (R326). -/
def entryRouter (m : Nat) (l : LFlit) : Nat := edgeRouter m (flowKey l.sdie l.flit.h.src)

/-- An arriving stream flit under the ingress entry that matches it (R329). -/
def Die.ingressStream (d : Die) (m : Nat) (l : LFlit) : Option Flit :=
  let h := l.flit.h
  (findIdxFrom (fun i =>
    let e := 0x84080 + 256 * m + 8 * i
    bit (d.reg e) 31 && (d.reg e).setWidth 16 == l.sdie && d.rf (e + 4) 15 4 == h.src && d.rf (e + 4) 3 0 == h.sep) 0 16).map (fun i =>
      l.flit.withHdr { h with src := 64 * (60 + m / 12) + m % 12, sep := i })

/-- Is a flit for another die? (R325, R328) -/
def Die.inTransit (d : Die) (l : LFlit) : Bool := l.ddie != 0xFFFF && l.ddie != d.addr

/-- A data flit that leaves the Landing (R328): into the mesh for this die, or across it for another. -/
def Die.landed (d : Die) (m : Nat) (l : LFlit) : Die :=
  let h := l.flit.h
  if d.inTransit l = false then
    if h.vc = 1 ∧ h.kind < 3 then
      match d.ingressStream m l with
      | some f => d.enter (entryRouter m l) 5 f
      | none => d.fsMiss m
    else d.enter (entryRouter m l) 5 { l.flit with port := h.vc == 2 && h.kind == 6 }
  else match routeModule d.reg l.ddie (flowKey l.sdie h.src) with
    | none => d.noRoute m l
    | some (o, _) =>
      d.enter (entryRouter m l) 5
        { l.flit with hdr := { h with far := true, dest := o }.pack, transit := some (l.ddie, l.sdie, h.dest) }

/-- Does a flit of the Landing find the Porch port's input register of its router free of its VC, and, where it will be answered with
NO_ROUTE, a place in the egress queue? (R208, R320, R338) -/
def Die.landsNow (d : Die) (m : Nat) (l : LFlit) : Bool :=
  let h := l.flit.h
  ((d.router (entryRouter m l)).inp 5).all (fun f => f.h.vc != h.vc) &&
    !(h.vc == 2 && h.kind == 5 && d.inTransit l && (routeModule d.reg l.ddie (flowKey l.sdie h.src)).isNone &&
      decide (16 ≤ (d.mod m).egress.countP (fun x => x.flit.h.vc == 2)))

/-- Does a flit wait for the transit shaper? (R328) -/
def Die.shapes (d : Die) (l : LFlit) : Bool := l.flit.h.vc == 1 && d.inTransit l

/-- A flit leaves the Landing, and its slot is free (R320). -/
def Die.leaveLanding (d : Die) (m : Nat) (l : LFlit) : Die := (d.landed m l).modMod m (fun x => x.freeSlot l.flit.h.vc)

/-- A data flit that has come over a link (R320, R328): it leaves the Landing at once when it can, and waits there behind an older one of
its VC, for the router, or for the transit shaper. [DESIGN CHOICE, log 65] -/
def Die.deliver (d : Die) (m : Nat) (l : LFlit) : Die :=
  let older := (d.mod m).ingress.any (fun x => x.flit.h.vc == l.flit.h.vc && !d.shapes x)
  if d.shapes l = false ∧ older = false ∧ d.landsNow m l then d.leaveLanding m l
  else d.modMod m (fun x => { x with ingress := x.ingress ++ [l] })

/-- One module's Landing in one cycle: the oldest flit of each VC that the shaper does not hold leaves when it can. -/
def Die.drainLanding (d : Die) (m : Nat) : Die :=
  [0, 1, 2].foldl (fun d vc =>
    match (d.mod m).ingress.find? (fun l => l.flit.h.vc == vc && !d.shapes l) with
    | some l => if d.landsNow m l then (d.modMod m (fun x => { x with ingress := x.ingress.erase l })).leaveLanding m l else d
    | none => d) d

/-- Every Landing in one cycle; a HUB module's responses are taken by HUB_RESPONSE. -/
def Die.drainLandings (d : Die) : Die :=
  d.mods.foldl (fun d e => if e.2.ingress.isEmpty ∨ d.role e.1 = 2 then d else d.drainLanding e.1) d

/-- TRANSIT_ADMIT (R328): the oldest VC1 flit that waits in the Landing leaves when the transit shaper admits it. -/
def Die.transitAdmit (d : Die) (m : Nat) : Die :=
  let x := d.mod m
  match x.ingress.find? (fun l => d.shapes l) with
  | none => d
  | some l =>
    if d.role m = 2 ∨ d.landsNow m l = false then d
    else match x.shaper.spend (d.reg (modOff m 2)) d.cyc 1 with
      | none => d
      | some sh => (d.modMod m (fun x => { x with ingress := x.ingress.erase l, shaper := sh })).leaveLanding m l

/-- The slots of a packet's data flits freed (R320). -/
def Die.freePacket (d : Die) (p : Packet) : Die :=
  d.modMod p.mod (fun x => p.flits.foldl (fun x l => x.freeSlot l.flit.h.vc) x)

/-- A transport flit on an OPTICAL module: a header opens a packet, the data flits that follow complete it, and the header's source die
names its connection (R335). [DESIGN CHOICE, log 66] -/
def Die.gather (d : Die) (m : Nat) (l : LFlit) : Die :=
  let h := l.flit.h
  let done (d : Die) (p : Packet) : Die :=
    let d := d.modMod m (fun x => { x with packet := none })
    match d.connTo p.sdie with
    | some c => d.modConn c (fun k => { k with got := k.got ++ [p] })
    | none => (d.discard m p.flits.length).freePacket p
  if h.vc = 3 then
    let p : Packet := ⟨m, l.sdie, fld (l.flit.word 0) 63 32, fld (l.flit.word 0) 31 28, fld (l.flit.word 1) 63 32, bit (l.flit.word 1) 0, []⟩
    if p.cnt = 0 then done d p else d.modMod m (fun x => { x with packet := some p })
  else match (d.mod m).packet with
    | none => if h.vc = 2 ∧ h.kind = 5 ∧ l.ddie = 0xFFFF then d.deliver m l else (d.badRole m).modMod m (fun x => x.freeSlot h.vc)
    | some p =>
      let p := { p with flits := p.flits ++ [l] }
      if p.cnt ≤ p.flits.length then done d p else d.modMod m (fun x => { x with packet := some p })

/-- A barrier event that arrives on a module (R283, R287, R323). [DEDUCED, log 72] -/
def Die.barEvent (d : Die) (m bk ch : Nat) : Die :=
  if bk = 0 then (if (d.kidsOf ch).contains m then d.modBar ch (fun b => if b.kids.contains m then b else { b with kids := b.kids ++ [m] }) else d)
  else if bk = 1 then d.modBar ch (fun b => { b with down := some false })
  else if bk = 2 then (if ch = 31 then d.modBar ch (fun b => { b with down := some true }) else d.orphanBar ch 4 m)
  else d

/-- A module's role lets it carry a sequenced flit, `ev` with a barrier event: a PEER module any but transport headers; an OPTICAL module
any; a HUB module a hub's lines and responses; a module of role NONE Service traffic while the site is not committed; only PEER and
OPTICAL modules carry events (R313, R323, R325, R331, R433). [DESIGN CHOICE, log 68] -/
def Die.roleTakes (d : Die) (m : Nat) (l : LFlit) (ev : Bool) : Bool :=
  let h := l.flit.h
  match d.role m with
  | 0 => !ev && h.vc == 2 && (h.kind == 5 || h.kind == 6) && !bit (d.reg 0x140034) 31
  | 1 => h.vc != 3 || h.kind == 1
  | 2 => !ev && ((h.kind == 5 && (h.vc == 1 || h.vc == 2)) || (h.kind == 6 && h.vc != 3))
  | _ => true

/-- An accepted flit taken in, with its barrier event. While the die has no address, only VC2 Service requests for 0xFFFF are (R313, R319,
R323, R325). -/
def Die.accept (d : Die) (m : Nat) (l : LFlit) (ev : Option (Nat × Nat)) : Die :=
  let vc := l.flit.h.vc
  let kind := l.flit.h.kind
  let free (d : Die) : Die := if vc = 3 then d else d.modMod m (fun x => x.freeSlot vc)
  if d.addrSet = false then
    if l.ddie = 0xFFFF ∧ vc = 2 ∧ kind = 5 then d.deliver m l else free (d.porchErr 0 2 m St.ADDR_UNSET)
  else if d.roleTakes m l ev.isSome = false then free (d.badRole m)
  else
    let d := match ev with
      | some e => d.barEvent m e.1 e.2
      | none => d
    if vc = 3 ∧ kind = 1 then d
    else if d.role m = 2 then d.modMod m (fun x => { x with ingress := x.ingress ++ [l] })
    else if d.role m = 3 then d.gather m l
    else d.deliver m l

/-- LACK and credits of a good flit taken up (R320, R321). -/
def Module.takeLack (x : Module) (lack cvc ccnt : Nat) : Module :=
  let keep := x.replay.filter (fun s => !atOrAfter 10 s.lseq lack)
  let gone := x.replay.length - keep.length
  let x := { x with replay := keep, resends := if 0 < gone then 0 else x.resends
                    resendFrom := match x.resendFrom with
                      | some i => if keep.isEmpty then none else some (i - gone)
                      | none => none }
  if cvc = 3 then x
  else { x with used := tset 0 x.used cvc (tget 0 x.used cvc - (ccnt + 64 - tget 0 x.seen cvc) % 64), seen := tset 0 x.seen cvc ccnt }

/-- A replay asked for, once for a gap (R321). -/
def Module.wantReplay (x : Module) : Module := if x.asked then x else { x with asked := true, askReplay := true }

/-- LINK_FLIT_RECEIVE (R318 to R321, R323): a link flit of 768 bits. [DESIGN CHOICE, log 73] -/
def Die.linkReceive (d : Die) (m : Nat) (raw : BitVec 768) : Die :=
  if d.modState m ≠ 3 then d
  else
    let x := raw.toNat
    let data (j : Nat) : BitVec 64 := BitVec.ofNat 64 (x / 2 ^ (84 + 76 * j))
    let disc (j : Nat) : BitVec 12 := BitVec.ofNat 12 (x / 2 ^ (84 + 76 * j + 64)) ^^^ eccCheck (data j)
    let err : Tbl WErr := (List.range 9).filterMap (fun j => if disc j = 0 then none else some (j, .disc (disc j)))
    let f0 : Flit := ⟨data 0, (List.range 8).map (fun i => data (i + 1)), err, [], none, false⟩
    let (f, ce, _, lost) := f0.check
    let vc := f.h.vc
    let kind := f.h.kind
    let bad := crc16 752 (x / 65536) ≠ x % 65536 ∨ (vc = 3 ∧ 2 < kind ∧ lost = false)
    if bad then
      let d := (d.bump (modOff m 4) 1).bump 0x240030 1
      if vc = 3 ∧ kind = 0 then d else d.modMod m Module.wantReplay
    else if lost then d.modMod m Module.wantReplay
    else
      let d := if ce = 0 then d else (d.bump (modOff m 3) ce).bump 0x240030 ce
      let cvc := fld raw 31 30
      let ccnt := fld raw 29 24
      let d := d.modMod m (fun y => y.takeLack (fld raw 41 32) cvc ccnt)
      let y := d.mod m
      let lseq := fld raw 51 42
      if vc = 3 ∧ kind = 0 then
        let d := if cvc = 3 ∧ ccnt = 1 then d.modMod m (fun y => { y with asks := true }) else d
        if lseq ≠ y.rxSeq ∧ atOrAfter 10 y.rxSeq lseq then d.modMod m Module.wantReplay else d
      else
        if lseq = y.rxSeq then
          let d := d.modMod m (fun y => { y with rxSeq := (y.rxSeq + 1) % 1024, asked := false, askReplay := false })
          d.accept m ⟨BitVec.ofNat 16 (fld raw 83 68), BitVec.ofNat 16 (fld raw 67 52), f⟩
            (if bit raw 23 then some (fld raw 22 21, fld raw 20 16) else none)
        else if atOrAfter 10 y.rxSeq lseq then d.modMod m Module.wantReplay
        else d

/-! ### The die address (R325) -/

/-- SITE cleared by a write of a register of R438 (R440). [DESIGN CHOICE, log 101] [DEDUCED, log 132] -/
def Die.siteStale (d : Die) : Die := d.setF 0x140034 31 31 0

/-- DIE_ADDR_WRITE: the address is assigned once; 0xFFFF changes nothing. -/
def Die.dieAddr (d : Die) (v : Word) : Die × Status :=
  if d.addrSet then (d, St.ADDR_SET)
  else if fld v 15 0 = 0xFFFF then (d, St.OK)
  else (d.setNat 0x80000 (put 1 31 + fld v 15 0), St.OK)

/-- DIE_ADDR_WRITE as a command: a refusal is recorded in PORCH_ERR (R325, R550). -/
def Die.dieAddrCmd (d : Die) (v : Word) : Die :=
  let x := d.dieAddr v
  if x.2 = St.OK then x.1.siteStale else d.porchErr 0 6 0 x.2

/-- MODULE_EN_WRITE as a command: refused with CTX_STATE while a context is RUNNING or DRAINING (R341). -/
def Die.modEnCmd (d : Die) (m : Nat) (v : Word) : Die :=
  if d.anyBusy then d.porchErr 0 2 m St.CTX_STATE else if d.modState m = 0 then d else (d.modEn m v).siteStale

end Sys2Proof.Machine
end

