-- ==== Sys2Proof/Machine/Transport.lean ====
section
/-! DEFINITION. Memory hubs, the long-reach transport and barrier releases (R283, R287, R330 to R338). -/

namespace Sys2Proof.Machine

/-! ### Memory hubs (R331, R333, R497) -/

/-- The status a die reads from a hub (R497). -/
def hubStatus (s : Nat) : Status :=
  let st : Status := BitVec.ofNat 16 s
  if st = St.OK ∨ st = St.MEM_ADDR ∨ st = St.HUB_ERR then st else St.HUB_ERR

/-- HUB_RESPONSE (R331, R333): the oldest flit that a HUB module has brought answers the request it names; late ones are
discarded and counted. [DESIGN CHOICE, log 69] -/
def Die.hubResponse (d : Die) (m : Nat) : Die :=
  if d.role m ≠ 2 then d
  else match (d.mod m).ingress with
  | [] => d
  | l :: rest =>
    let h := l.flit.h
    let d := d.modMod m (fun x => { x with ingress := rest }.freeSlot h.vc)
    match d.hub.findIdx? (fun q => q.mod == m && q.src == h.dest && q.sep == h.sep && q.mseq == h.mseq) with
    | none => d.discard m 1
    | some i =>
      match d.hub[i]? with
      | none => d
      | some q =>
        if h.kind = 6 then
          let st := hubStatus (fld (l.flit.word 0) 15 0)
          ({ d with hub := d.hub.eraseIdx i }).hubReply q st
        else
          let left := q.left - 1
          let d := { d with hub := if left = 0 then d.hub.eraseIdx i else d.hub.set i { q with left := left } }
          d.enter (entryRouter m l) 5 l.flit

/-- HUB_TIMEOUT (R333): a request without a complete response within PORCH_HUB_TO µs completes with MEM_TIMEOUT.
[DESIGN CHOICE, log 69] -/
def Die.hubTimeout (d : Die) (i : Nat) : Die :=
  match d.hub[i]? with
  | none => d
  | some q =>
    let limit := d.rf 0x8000C 19 0
    if limit ≠ 0 ∧ q.at_ + 100 * limit ≤ d.ts.toNat then ({ d with hub := d.hub.eraseIdx i }).hubReply q St.MEM_TIMEOUT else d

/-! ### Long-reach connections (R334 to R338) -/

/-- The edges on which a link group lies. -/
def Die.groupEdges (d : Die) (g : Nat) : List Nat := ((groupModules d.reg g).map (· / 12)).eraseDups

/-- The windows of the enabled connections on an edge together, with connection `c` counted as enabled at `ctl` (R338). -/
def Die.edgeWindow (d : Die) (e c : Nat) (ctl : Word) : Nat :=
  (List.range 64).foldl (fun a k =>
    let v := if k = c then ctl else d.reg (connOff k 0)
    if bit v 31 ∧ (d.groupEdges (fld v 27 24)).contains e then a + d.connWin k else a) 0

/-- CONNECTION_ENABLE (R334, R337, R338): a write of PORCH_XC_CTL; EN sets both sequences to 0, and is refused when the windows on one
edge would pass 16,384 flits. FAILED stays until a write of EN = 1 that follows a write of EN = 0. [DESIGN CHOICE, log 66] -/
def Die.connEnable (d : Die) (c : Nat) (v : Word) : Die × Status :=
  let old := d.reg (connOff c 0)
  let ctl := mergeMask 0 v 0x8F00FFFF ||| (if bit v 31 ∧ bit old 31 = false then 0 else old &&& 0x40000000)
  if bit v 31 ∧ (d.groupEdges (fld v 27 24)).any (fun e => 16384 < d.edgeWindow e c ctl) then
    (d.porchErr 0 3 c St.XPORT_WIN, St.XPORT_WIN)
  else
    let d := d.setReg (connOff c 0) ctl
    if bit v 31 then
      ({ (d.setReg (connOff c 1) 0).setReg (connOff c 2) 0 with conns := tset .reset d.conns c .reset }, St.OK)
    else (d, St.OK)

/-- CONNECTION_ENABLE as a command: refused with CTX_STATE while a context is RUNNING or DRAINING (R341). -/
def Die.connEnableCmd (d : Die) (c : Nat) (v : Word) : Die := if d.anyBusy then d.porchErr 0 3 c St.CTX_STATE 
  else let x := d.connEnable c v
    if x.2 = St.OK then x.1.siteStale else x.1

/-- A header of the connection's own waits to be sent (R335, R336). -/
def Die.connSend (d : Die) (c : Nat) (nak : Bool) : Die := d.modConn c (fun k => { k with control := k.control ++ [nak] })

/-- Is a connection enabled and not failed? -/
def Die.connRuns (d : Die) (c : Nat) : Bool := bit (d.reg (connOff c 0)) 31 && !bit (d.reg (connOff c 0)) 30

/-- Every unacknowledged packet to be sent again from the oldest, and the connection FAILED at its retry limit, each packet it discards
counted at the module it was bound for (R336, R337). -/
def Die.connResend (d : Die) (c : Nat) : Die :=
  let k := d.conn c
  if k.unacked.isEmpty ∨ d.connRuns c = false then d
  else
    let limit := max 1 (d.rf (connOff c 3) 31 28)
    if limit ≤ k.retries then
      let d := k.unacked.foldl (fun d u => d.discard u.mod 1) (d.setF (connOff c 0) 30 30 1)
      ((d.modConn c (fun k => { k with unacked := [], resend := none })).dirty 3 c St.XPORT_FAIL).porchErr 1 3 c St.XPORT_FAIL
    else
      d.modConn c (fun k => { k with retries := k.retries + 1, resend := some 0, unacked := k.unacked.map (fun u => { u with at_ := d.ts.toNat }) })

/-- TACK taken up: the packets before it are acknowledged (R336). -/
def Conn.ack (k : Conn) (tack : Nat) : Conn :=
  let keep := k.unacked.filter (fun u => !atOrAfter 32 (u.tseq + 1) tack)
  let gone := k.unacked.length - keep.length
  { k with unacked := keep, retries := if 0 < gone then 0 else k.retries
           resend := k.resend.bind (fun i => if keep.isEmpty then none else some (i - gone)) }

/-- TRANSPORT_PACKET_RECEIVE (R336): the oldest packet that has arrived is accepted in order, discarded as a duplicate and
acknowledged again, or answered with one NAK for its gap. -/
def Die.packetReceive (d : Die) (c : Nat) : Die :=
  match (d.conn c).got with
  | [] => d
  | p :: rest =>
    if bit (d.reg (connOff c 0)) 31 = false then (d.modConn c (fun k => { k with got := rest })).freePacket p else
    let d := d.modConn c (fun k => { k with got := rest }.ack p.tack)
    let d := if p.nak then d.connResend c else d
    let want := (d.reg (connOff c 2)).toNat
    if p.cnt = 0 then d
    else if p.tseq = want then
      let d := (d.setNat (connOff c 2) (want + 1)).modConn c (fun k =>
        { k with naked := false, firstAt := if k.since = 0 then d.ts.toNat else k.firstAt, since := k.since + 1 })
      p.flits.foldl (fun d l => d.deliver p.mod l) d
    else if atOrAfter 32 want p.tseq then
      let d := d.freePacket p
      if (d.conn c).naked then d else (d.modConn c (fun k => { k with naked := true })).connSend c true
    else (d.freePacket p).connSend c false

/-- TRANSPORT_ACK_TIMER (R336): an acknowledgement after 1 µs or 16 packets. -/
def Die.ackTimer (d : Die) (c : Nat) : Die :=
  let k := d.conn c
  if bit (d.reg (connOff c 0)) 31 ∧ 0 < k.since ∧ (16 ≤ k.since ∨ k.firstAt + 100 ≤ d.ts.toNat) then
    (d.modConn c (fun k => { k with since := 0 })).connSend c false
  else d

/-- TRANSPORT_RETRANSMIT_TIMEOUT (R336, R337): the oldest unacknowledged packet has waited the retransmit timeout. -/
def Die.retransmit (d : Die) (c : Nat) : Die :=
  match (d.conn c).unacked with
  | u :: _ => if u.at_ + 100 * d.rf (connOff c 3) 11 0 ≤ d.ts.toNat then d.connResend c else d
  | [] => d

/-! ### Barriers (R283, R287) -/

/-- The cores that take part in a channel; those of channel 31 are the job cores (R282, R351). -/
def Die.partakers (d : Die) (ch : Nat) : List CoreCode :=
  d.codes.filter (fun c => bit ((d.core c.toNat).reg 0xD140) ch && d.coreOn c.toNat)

/-- The bound semaphore of a core signalled by a barrier release (R276, R283). -/
def Wk.barSignal (ch : Nat) (w : Wk) : Wk :=
  let b := w.reg (0xD180 + 4 * ch)
  let w := w.onCore (fun c => { c with barArr := tset false c.barArr ch false })
  match w.c.semPhys (fld b 7 6) (fld b 5 0) with
  | some p => (w.addSignal p 1 (w.lsig 2 w.env.die w.env.code)).serveRWaits
  | none => w

/-- A channel released on this die: every taking-part core signalled, GEN counted, the release passed down, a fresh phase (R283). -/
def Die.releaseBar (d : Die) (ch : Nat) : Die :=
  let off := 0x4010C + 16 * ch
  let d := (d.partakers ch).foldl (fun d c => d.onCore c (Wk.barSignal ch)) d
  let d := (d.setF off 15 0 (d.rf off 15 0 + 1)).setF off 30 30 0
  let d := d.modBar ch (fun _ => .reset)
  if d.wide ch then d.sendDown ch 1 else d

/-- Have all the channel's arrivals come? (R283) [DESIGN CHOICE, log 61] -/
def Die.barFull (d : Die) (ch : Nat) : Bool :=
  let ps := d.partakers ch
  let kids := if d.wide ch then d.kidsOf ch else []
  (!ps.isEmpty || !kids.isEmpty) && ps.all (fun c => tget false (d.core c.toNat).barArr ch) && kids.all (fun m => (d.bar ch).kids.contains m)

/-- BARRIER_RELEASE (R283, R323): with every arrival in, the root releases the channel; another die sends its arrival upward, and
releases when its parent has. -/
def Die.barRelease (d : Die) (ch : Nat) : Die :=
  let off := 0x4010C + 16 * ch
  if ch = 31 ∨ bit (d.reg (0x40100 + 16 * ch)) 31 = false ∨ bit (d.reg off) 31 ∨ d.barFull ch = false then d
  else if d.wide ch = false ∨ (d.parentOf ch).1 then d.releaseBar ch
  else if (d.bar ch).down.isSome then d.releaseBar ch
  else if (d.bar ch).up then d
  else ((d.modBar ch (fun b => { b with up := true })).setF off 30 30 1).sendUp ch 0

/-- BARRIER_CHANNEL_ENABLE (R287, R289): a write of SEM_BAR_CTL; EN = 1 clears ORPH and starts a phase. -/
def Die.barEnable (d : Die) (ch : Nat) (v : Word) : Die :=
  let d := d.setReg (0x40100 + 16 * ch) (mergeMask 0 v 0xFFC00000)
  if bit v 31 then
    let d := (d.setF (0x4010C + 16 * ch) 31 30 0).modBar ch (fun _ => .reset)
    d.codes.foldl (fun d c => if d.coreOn c.toNat then
      d.setCore c.toNat { d.core c.toNat with barArr := tset false (d.core c.toNat).barArr ch false } else d) d
  else d

/-- BARRIER_CHANNEL_ENABLE: SEM_BAR_CTL of a channel written; refused with CTX_STATE while a context runs, recorded in CTL_PORT_ERR for
port 0 (R287, R289, R550). [DESIGN CHOICE, log 102] -/
def Die.barEnableCmd (d : Die) (ch : Nat) (v : Word) : Die := if d.anyBusy then d.portErr 0 0 St.CTX_STATE else d.barEnable ch v

/-- The cores that have arrived in a channel's phase. -/
def Die.barArrived (d : Die) (ch : Nat) : Nat := d.cores.countP (fun e => tget false e.2.barArr ch)

end Sys2Proof.Machine
end

