-- ==== Sys2Proof/Machine/Image.lean ====
section
/-! DEFINITION. The job-image container: its header, sections and records, and their writes (R307, R308, R524 to R529). -/

namespace Sys2Proof.Machine

/-- A section of the container: its code, and the first word and number of its words (R524). -/
structure Sect where
  code : Nat
  first : Nat
  len : Nat
deriving DecidableEq, Repr

/-- Word `i` of an image as a number. -/
def iw (img : List Word) (i : Nat) : Nat := (nth 0 img i).toNat

/-- NSECT of the container header (R524). -/
def nsect (img : List Word) : Nat := nfld (iw img 1) 31 16

/-- The sections that the directory lists (R524). -/
def sects (img : List Word) : List Sect :=
  (List.range (nsect img)).map (fun i => ⟨nfld (iw img (16 + 4 * i)) 15 0, iw img (17 + 4 * i) / 4, iw img (18 + 4 * i) / 4⟩)

/-- The words of the section with a code; empty where there is none. -/
def sectWords (img : List Word) (code : Nat) : List Word :=
  match (sects img).find? (fun s => s.code == code) with
  | some s => (img.drop s.first).take s.len
  | none => []

/-- A record of a section (R526, R528). -/
inductive Rec where
  | core (code off : Nat) (data : List Word)
  | coreset (off r0 r1 c0 c1 : Nat) (data : List Word)
  | die (off : Nat) (data : List Word)
  | plan (typ : Nat) (data : List Word)
deriving DecidableEq, Repr

/-- One record from the front of some words: the record and the words after it; none where it is not well formed, a field that the table
of R526 gives as 0 included (R524, R526). [DEDUCED, log 136] -/
def takeRec (ws : List Word) : Option (Rec × List Word) :=
  match ws with
  | w0 :: w1 :: rest =>
    let count := fld w0 27 12
    let off := w1.toNat
    match fld w0 31 28 with
    | 1 =>
      if rest.length < count ∨ off % 4 ≠ 0 ∨ isCore (fld w0 11 0) = false then none
      else some (.core (fld w0 11 0) off (rest.take count), rest.drop count)
    | 2 =>
      match rest with
      | w2 :: rest =>
        if rest.length < count ∨ off % 4 ≠ 0 ∨ fld w0 11 0 ≠ 0 ∨ 47 < fld w2 29 24 ∨ 47 < fld w2 21 16 ∨ 47 < fld w2 13 8 ∨ 47 < fld w2 5 0 then none
        else some (.coreset off (fld w2 29 24) (fld w2 21 16) (fld w2 13 8) (fld w2 5 0) (rest.take count), rest.drop count)
      | [] => none
    | 3 => if rest.length < count ∨ off % 4 ≠ 0 ∨ fld w0 11 0 ≠ 0 then none else some (.die off (rest.take count), rest.drop count)
    | 5 => if rest.length < count ∨ w1 ≠ 0 then none else some (.plan (fld w0 7 0) (rest.take count), rest.drop count)
    | _ => none
  | _ => none

/-- The records of a section; none where one is not well formed (R526). -/
def takeRecs : Nat → List Word → Option (List Rec)
  | 0, ws => if ws.isEmpty then some [] else none
  | n + 1, ws =>
    if ws.isEmpty then some []
    else match takeRec ws with
      | some (r, rest) => (takeRecs n rest).map (fun l => r :: l)
      | none => none

/-- The records of a section of an image; none of a section that is not there. -/
def recsOf (img : List Word) (code : Nat) : Option (List Rec) :=
  let ws := sectWords img code
  takeRecs ws.length ws

/-- May a section's CORE and CORESET records write this core-window offset? (R307, R527) -/
def coreTarget (code off : Nat) : Bool :=
  let within (lo hi : Nat) : Bool := decide (0x80000 + lo ≤ off) && decide (off < 0x80000 + hi)
  match code with
  | 0x2 => (decide (0xC0000 ≤ off) && decide (off < 0xC8000)) || within 0x100 0x180 || within 0x200 0x300 || within 0x2000 0x2800 ||
      within 0x3000 0x3400 || within 0xA00 0xA04
  | 0x3 => within 0x900 0x948 || within 0x1000 0x1280
  | 0x4 => within 0x600 0x628 || within 0x800 0x840
  | 0x5 => within 0xC000 0xD210
  | 0x6 => within 0x4000 0x4280
  | 0x7 => within 0x5000 0x5300
  | 0x8 => within 0x6000 0x6800 || within 0x8000 0xC000
  | 0xB => within 0xE000 0xE0C0
  | _ => false

/-- May a section's DIE records write this die-control offset? (R307, R527) -/
def dieTarget (code off : Nat) : Bool :=
  let within (lo hi : Nat) : Bool := decide (lo ≤ off) && decide (off < hi)
  match code with
  | 0x5 => within 0x40000 0x402F0
  | 0x9 => (within 0x81000 0x81600 && off % 32 == 8) || within 0x84000 0x87000
  | 0xB => within 0xC0000 0xC0044 || within 0xC0100 0xC0200
  | _ => false

/-- Is a record one that its section allows? (R527) -/
def recAllowed (code : Nat) : Rec → Bool
  | .core _ off data | .coreset off _ _ _ _ data => (List.range data.length).all (fun i => coreTarget code (off + 4 * i))
  | .die off data => (List.range data.length).all (fun i => dieTarget code (off + 4 * i))
  | .plan typ _ => (code == 7 && (typ == 1 || typ == 2 || typ == 4)) || (code == 9 && typ == 3)

/-- The cores a record writes: a CORE record's, or every job core in a CORESET's rectangle (R526). -/
def recCores (use : List Word) : Rec → List Nat
  | .core c _ _ => [c]
  | .coreset _ r0 r1 c0 c1 _ =>
    ((List.range 2304).map coreOfIndex).filter (fun c =>
      decide (r0 ≤ c / 64) && decide (c / 64 ≤ r1) && decide (c0 ≤ c % 64) && decide (c % 64 ≤ c1) &&
        bit (nth 0 use (coreIndex c / 32)) (coreIndex c % 32))
  | _ => []

/-- A word of a record written into a core window: a register, or half an instruction word (R518, R519, R444). -/
def Die.loadCoreWord (d : Die) (code off : Nat) (v : Word) : Die × Status :=
  let cc : CoreCode := BitVec.ofNat 12 code
  if 0xC0000 ≤ off then
    let i := (off - 0xC0000) / 8
    if off % 8 = 0 then d.atCoreS cc (fun w => w.writeInstr i (v.setWidth 64) 0xFFFFFFFF)
    else d.atCoreS cc (fun w => w.writeInstr i (v.setWidth 64 <<< 32) 0xFFFFFFFF00000000)
  else
    let o := off - 0x80000
    if routerOff o then (d.writeRouter code o v, St.OK)
    else d.atCoreS cc (fun w => w.writeReg o v d.addr)

/-- The writable bits of a die-control register that a DIE record or the site description stores as written (R289, R341, R377, R378). -/
def plainMask (off : Nat) : Word :=
  let within (lo hi : Nat) : Bool := decide (lo ≤ off) && decide (off < hi)
  if off = 0x28 ∨ off = 0x2C then 0xFFFFFFFF
  else if off = 0x40000 then 1
  else if within 0x40100 0x402F0 then
    (match off % 16 with
    | 0 => 0xFFC00000
    | 4 => 0xFFFFFFFF
    | 8 => 0xFFFF
    | _ => 0)
  else if off = 0x8000C then 0xFFFFF
  else if within 0x81000 0x81600 then (if off % 32 = 0 then 0x80000377 else if off % 32 = 8 then 0xFF0007FF else 0)
  else if within 0x82000 0x82080 then (if off % 8 = 0 then 0xFFFFFFFF else 0xFFFF)
  else if within 0x82100 0x82300 then (if off % 8 = 0 then 0xFFFFFFFF else 0xC000003F)
  else if within 0x82400 0x82460 then 0x8000000F
  else if within 0x84000 0x87000 then (if off % 8 = 0 then 0x8000FFFF else 0xFFFF)
  else if within 0x88000 0x88800 then (if off % 32 = 0xC then 0xF7FFFFFF else 0)
  else if off = 0xC0000 then 0xC00F0000
  else if off = 0xC0004 ∨ off = 0xC000C ∨ off = 0xC0014 ∨ off = 0xC001C ∨ off = 0xC0040 then 0xFFFFFFFF
  else if off = 0xC0008 then 0xBF000000
  else if off = 0xC0010 ∨ off = 0xC0018 then 0xFFFF
  else if within 0xC0100 0xC0200 then (if off % 16 = 0 then 0xC000001F else 0xFFFFFFFF)
  else if off = 0x180000 then 0xFFFFFFC0
  else if off = 0x180004 ∨ off = 0x180008 then 0xFFFFFFFF
  else if off = 0x140030 then 0xFFFF
  else if off = 0x140038 ∨ off = 0x14003C then 0xFFFFFFFF
  else if off = 0x240038 then 0xFFFF
  else if off = 0x240100 then 0x3FFC0
  else 0

/-- The modules that are not ABSENT, as the bits of a mask from module `m` on. -/
def Die.present (d : Die) (m n : Nat) : Word := BitVec.ofNat 32 ((List.range n).foldl (fun a i => a + put (b2n (d.modState (m + i) ≠ 0)) i) 0)

/-- The bits of a die-control register that this die has: a group's bit of an ABSENT module, and the whole of its far-stream entries, read 0
and ignore writes (R37). -/
def Die.unitMask (d : Die) (off : Nat) : Word :=
  if 0x82000 ≤ off ∧ off < 0x82080 then (if off % 8 = 0 then d.present 0 32 else d.present 32 16)
  else if 0x84000 ≤ off ∧ off < 0x87000 then (if d.modState ((off - 0x84000) / 256) = 0 then 0 else 0xFFFFFFFF)
  else 0xFFFFFFFF

/-- A die-control register stored as written under its mask. -/
def Die.storePlain (d : Die) (off : Nat) (v : Word) : Die := d.setReg off (mergeMask (d.reg off) v (plainMask off &&& d.unitMask off))

/-- A word of a DIE record written (R444): SEM_BAR_CTL starts its channel's phase, channel 31 is refused. -/
def Die.loadDieWord (d : Die) (off : Nat) (v : Word) : Die × Status :=
  if 0x402F0 ≤ off ∧ off < 0x40300 then (d, St.CTX_STATE)
  else if d.anyBusy ∧ (off < 0x402F0 ∨ (0x81000 ≤ off ∧ off < 0x87000)) then (d, St.CTX_STATE)
  else if 0x40100 ≤ off ∧ off < 0x402F0 ∧ off % 16 = 0 then (d.barEnable ((off - 0x40100) / 16) v, St.OK)
  else if 0x81000 ≤ off ∧ off < 0x81600 ∧ off % 32 = 8 then
    let d := d.storePlain off v
    (d.modMod ((off - 0x81000) / 32) (fun x => { x with shaper := Shaper.fill (d.reg off) d.cyc }), St.OK)
  else (d.storePlain off v, St.OK)

/-- One record written in ascending address, until a refusal (R444, R527). -/
def Die.loadRec (x : Die × Status) (r : Rec) : Die × Status :=
  let put (x : Die × Status) (f : Die → Die × Status) : Die × Status := if x.2 = St.OK then f x.1 else x
  match r with
  | .core _ off data | .coreset off _ _ _ _ data =>
    (recCores x.1.job.use r).foldl (fun x c =>
      (List.range data.length).foldl (fun x i => put x (fun d => d.loadCoreWord c (off + 4 * i) (nth 0 data i))) x) x
  | .die off data => (List.range data.length).foldl (fun x i => put x (fun d => d.loadDieWord (off + 4 * i) (nth 0 data i))) x
  | .plan _ _ => x

/-- The sections with some codes written, in ascending code, and the code at which a refusal stopped it (R444, R527). -/
def Die.loadSects (d : Die) (codes : List Nat) : Die × Status × Nat :=
  codes.foldl (fun (x : Die × Status × Nat) code =>
    if x.2.1 = St.OK then
      let (d, st) := ((recsOf x.1.job.image code).getD []).foldl Die.loadRec (x.1, St.OK)
      (d, st, if st = St.OK then 0 else code)
    else x) (d, St.OK, 0)

/-- Every record of one core, written again whatever its status: the reload of a rollback (R362, R363). -/
def Die.reloadCore (d : Die) (code : Nat) : Die :=
  [2, 3, 4, 5, 6, 7, 8].foldl (fun d s =>
    ((recsOf d.job.image s).getD []).foldl (fun d r =>
      if (recCores d.job.use r).contains code then
        match r with
        | .core _ off data | .coreset off _ _ _ _ data =>
          (List.range data.length).foldl (fun d i => (d.loadCoreWord code (off + 4 * i) (nth 0 data i)).1) d
        | _ => d
      else d) d) d

/-! ### The header (R525) -/

/-- Words of the header section. -/
def hdrWords (img : List Word) : List Word := sectWords img 1

/-- The words of USE. -/
def useWords (img : List Word) : List Word := ((hdrWords img).drop 8).take 72

/-- The floor clock in MHz. -/
def floorOf (img : List Word) : Nat := fld (nth 0 (hdrWords img) 1) 15 0

/-- The die addresses of the job. -/
def diesOf (img : List Word) : List DieAddr :=
  let h := hdrWords img
  (List.range (fld (nth 0 h 2) 15 0)).map (fun i => let w := nth 0 h (152 + i / 2)
                                                   if i % 2 = 0 then w.setWidth 16 else (w >>> 16).setWidth 16)

/-- The job cores: cores whose USE bit is 1. -/
def Die.jobCores (d : Die) : List CoreCode :=
  ((List.range 2304).filter (fun k => bit (nth 0 d.job.use (k / 32)) (k % 32))).map (fun k => BitVec.ofNat 12 (coreOfIndex k))

end Sys2Proof.Machine
end

