-- ==== Sys2Proof/Machine/Sha.lean ====
section
/-! DEFINITION. SHA-384 and HMAC-SHA-384 (FIPS 180-4 and FIPS 198-1, to which R424, R439, R441, R467 and R468 refer). -/

namespace Sys2Proof.Machine

/-- The primes of which FIPS 180-4 takes its constants: the first eighty. [PRESUMED, log 105] -/
def shaPrimes : List Nat := (List.range 410).filter (fun p => decide (2 ≤ p) && (List.range p).all (fun n => decide (n < 2) || p % n != 0))

/-- The whole part of the `k`-th root of a number below `2 ^ (68 * k)`, found from its highest bit down. -/
def wholeRoot (k x : Nat) : Nat :=
  (List.range 68).foldr (fun i r => if (r + 2 ^ i) ^ k ≤ x then r + 2 ^ i else r) 0

/-- The first 64 bits of the fraction of the `k`-th root of a number. -/
def rootFrac (k p : Nat) : BitVec 64 := BitVec.ofNat 64 (wholeRoot k (p * 2 ^ (64 * k)))

/-- The constants of the eighty rounds: fractions of the primes' cube roots. -/
def shaRounds : List (BitVec 64) := shaPrimes.map (rootFrac 3)

/-- The initial hash value of SHA-384: fractions of the square roots of the ninth to sixteenth primes. -/
def shaInit : List (BitVec 64) := ((shaPrimes.drop 8).take 8).map (rootFrac 2)

/-- A big-endian number from bytes. -/
def beNat (bs : List Byte) : Nat := bs.foldl (fun a b => a * 256 + b.toNat) 0

/-- The `n` big-endian bytes of a number. -/
def beBytes (n x : Nat) : List Byte := (leBytes n x).reverse

/-- The padded message. -/
def shaPad (msg : List Byte) : List Byte :=
  let z := (239 - msg.length % 128) % 128
  msg ++ [0x80] ++ List.replicate z 0 ++ beBytes 16 (8 * msg.length)

/-- The exclusive or of some rotations of a word: the large sigmas of FIPS 180-4. -/
def turns (x : BitVec 64) (l : List Nat) : BitVec 64 := l.foldl (fun y n => y ^^^ x.rotateRight n) 0

/-- A message schedule lengthened by one word; it is kept newest word first, so the word of `n` places ago stands at `n - 1`. -/
def shaExtend (w : List (BitVec 64)) : List (BitVec 64) :=
  let ago (n : Nat) : BitVec 64 := nth 0 w (n - 1)
  let small (x : BitVec 64) (l : List Nat) (n : Nat) : BitVec 64 := turns x l ^^^ (x >>> n)
  (ago 16 + ago 7 + small (ago 15) [1, 8] 7 + small (ago 2) [19, 61] 6) :: w

/-- The eight working words after a round whose constant and schedule word add up to `kw`: word 0 is FIPS 180-4's a, word 7 its h. Ch takes
each bit of word 5 or 6 as word 4 has it, Maj the bit that two of words 0 to 2 share. -/
def shaMix (v : List (BitVec 64)) (kw : BitVec 64) : List (BitVec 64) :=
  let at_ (i : Nat) : BitVec 64 := nth 0 v i
  let ch := at_ 6 ^^^ (at_ 4 &&& (at_ 5 ^^^ at_ 6))
  let maj := (at_ 0 &&& (at_ 1 ||| at_ 2)) ||| (at_ 1 &&& at_ 2)
  let new := kw + at_ 7 + ch + turns (at_ 4) [14, 18, 41]
  (new + maj + turns (at_ 0) [28, 34, 39]) :: v.take 3 ++ (at_ 3 + new) :: (v.drop 4).take 3

/-- One block of 128 bytes taken into the hash value. -/
def shaBlock (h : List (BitVec 64)) (blk : List Byte) : List (BitVec 64) :=
  let words := (List.range 16).map (fun i => BitVec.ofNat 64 (beNat ((blk.drop (8 * i)).take 8)))
  let sched := (iter 64 (fun _ w => shaExtend w) words.reverse).reverse
  List.zipWith (· + ·) h ((List.zipWith (· + ·) shaRounds sched).foldl shaMix h)

/-- Blocks of 128 bytes taken in. -/
def shaBlocks : Nat → List (BitVec 64) → List Byte → List (BitVec 64)
  | 0, h, _ => h
  | n + 1, h, bs => if bs.isEmpty then h else shaBlocks n (shaBlock h (bs.take 128)) (bs.drop 128)

/-- The 48 bytes of SHA-384. [PRESUMED, log 105] -/
def sha384 (msg : List Byte) : List Byte :=
  let p := shaPad msg
  ((shaBlocks (p.length / 128) shaInit p).take 6).flatMap (fun w => beBytes 8 w.toNat)

/-- HMAC-SHA-384. [PRESUMED, log 105] -/
def hmac384 (key msg : List Byte) : List Byte :=
  let k := if 128 < key.length then sha384 key else key
  let k := k ++ List.replicate (128 - k.length) 0
  sha384 (k.map (· ^^^ 0x5C) ++ sha384 (k.map (· ^^^ 0x36) ++ msg))

end Sys2Proof.Machine
end

