-- ==== Sys2Proof/Machine/Span.lean ====
section
/-! DEFINITION. Spans: arrivals, the commit fence, rollback, replay, spare takeover and stops (R342 to R379). -/

namespace Sys2Proof.Machine

/-! ### Arrivals of cores (R351, R352) -/

/-- The cores that take part in spans: EN of CORE_SPAN_CTL (R351, R379). -/
def Die.spanCores (d : Die) : List CoreCode := d.codes.filter (fun c => bit ((d.core c.toNat).reg 0xE000) 31)

/-- Does the core's span-done semaphore hold its threshold? (R351) -/
def Core.spanDone (c : Core) : Option Nat :=
  let ctl := c.reg 0xE000
  match c.semPhys (fld ctl 29 28) (fld ctl 27 22) with
  | some p => if fld ctl 15 0 ≤ (c.sem p).value then some p else none
  | none => none

/-- CORE_SPAN_ARRIVAL (R351): a quiescent core at its threshold arrives; THRESH is subtracted and ARR set. -/
def Die.coreArrive (d : Die) (code : CoreCode) : Die :=
  let c := d.core code.toNat
  if d.spanPhase = 1 ∧ bit (c.reg 0xE000) 31 ∧ c.spanArr = false ∧ c.quiescent d.cyc then
    match c.spanDone with
    | some p => d.atCore code (fun w => (w.consume p (fld (w.reg 0xE000) 15 0)).onCore (fun c => { c with spanArr := true, quiet := 0 }))
    | none => d
  else d

/-- SPAN_QUIET_EXPIRY (R352): at the threshold but not quiescent for QLIM cycles in a row. -/
def Die.spanQuiet (d : Die) (code : CoreCode) : Die :=
  let c := d.core code.toNat
  if d.spanPhase = 1 ∧ bit (c.reg 0xE000) 31 ∧ c.spanArr = false ∧ d.rf 0xC0018 15 0 ≤ c.quiet ∧ 0 < c.quiet ∧ d.coreOn code.toNat then
    (d.setCore code.toNat { c with quiet := 0 }).spanFault 0 code.toNat St.SPAN_QUIET
  else d

/-- The count of SPAN_QUIET advanced by one cycle. -/
def Core.countQuiet (c : Core) (cyc : Nat) : Core :=
  if bit (c.reg 0xE000) 31 && !c.spanArr && c.spanDone.isSome && !c.quiescent cyc then { c with quiet := c.quiet + 1 }
  else if c.quiet = 0 then c else { c with quiet := 0 }

/-- SPAN_WDOG_EXPIRY (R352). -/
def Die.spanWdog (d : Die) : Die :=
  let lim := (d.reg 0xC0014).toNat
  if d.spanPhase = 1 ∧ lim ≠ 0 ∧ d.span.wdog = false ∧ d.span.goTs + 100 * lim < d.ts.toNat then
    ({ d with span := { d.span with wdog := true } }).spanFault 6 0 St.SPAN_WDOG
  else d

/-! ### Channel 31 (R356, R357) -/

/-- The log die's messages (R366): 1 MARK, 2 HOLD, 3 REWIND, sent as Service requests with the reply awaited. -/
def Die.sendLog (d : Die) (lop spanNo : Nat) : Die :=
  let die := d.rf 0xC001C 15 0
  if die = 0xFFFF then { d with span := { d.span with logOk := d.span.logOk ++ [lop] } }
  else
    let limit := d.ts.toNat + 100 * d.rf 0xC001C 31 16
    let d := { d with span := { d.span with log := d.span.log.filter (fun (x : Nat × Nat × Nat) => x.1 != lop) ++ [(lop, spanNo, limit)] } }
    match routeModule d.reg (BitVec.ofNat 16 die) (flowKey d.addr 0) with
    | some (m, _) =>
      d.toPort [Flit.mk' ⟨2, 5, true, true, m, 0, 0, 0, die, 0⟩
        [BitVec.ofNat 64 (put lop 56 + put spanNo 24), BitVec.ofNat 64 (put (d.reg 0xC0040).toNat 32)]]
    | none => d.porchErr 0 6 0 St.NO_ROUTE

/-- Has a log message been answered OK, or is there no log die? -/
def Die.logAnswered (d : Die) (lop : Nat) : Bool := d.span.logOk.contains lop

/-- Conditions 3 to 5 of R356: every link flit, packet and hub request of the die acknowledged. -/
def Die.drained (d : Die) : Bool := d.mods.all (fun m => m.2.replay.isEmpty) && d.conns.all (fun c => c.2.unacked.isEmpty) && d.hub.isEmpty

/-- This die and its children have arrived in the current phase. -/
def Die.full31 (d : Die) : Bool := d.span.arrived && (d.kidsOf 31).all (fun m => (d.bar 31).kids.contains m)

/-- The arrival of a whole subtree sent upward, once (R283, R357). -/
def Die.push31 (d : Die) : Die :=
  if d.full31 ∧ (d.parentOf 31).1 = false ∧ (d.bar 31).up = false then
    (d.modBar 31 (fun b => { b with up := true })).sendUp 31 0
  else d

/-- This die arrives in the current phase. [DESIGN CHOICE, log 85] -/
def Die.arrive31 (d : Die) : Die := ({ d with span := { d.span with arrived := true } }).push31

/-- FENCE_ARRIVAL (R356): the commit fence clears on this die. -/
def Die.fenceArrive (d : Die) : Die :=
  if d.spanPhase = 1 ∧ d.span.arrived = false ∧ bit (d.reg 0xC0028) 31 = false ∧ !d.spanCores.isEmpty ∧
      d.spanCores.all (fun c => (d.core c.toNat).spanArr) ∧ d.drained then d.arrive31
  else d

/-- PHASE set and its arrivals cleared. -/
def Die.enterPhase (d : Die) (ph : Nat) : Die :=
  (({ d with span := { d.span with arrived := false } }).modBar 31 (fun _ => .reset)).setF 0xC0000 2 0 ph

/-- Is the current phase released on this die: at the root with every arrival in, elsewhere by its parent? (R357) -/
def Die.released31 (d : Die) : Bool := if (d.parentOf 31).1 then d.full31 else d.full31 && (d.bar 31).down == some false

/-- A release passed down. -/
def Die.passRelease (d : Die) : Die := d.sendDown 31 1

/-! ### Shadows (R354) -/

/-- The block offsets of the registers in the span shadow. -/
def shadowRegs : List Nat :=
  (List.range 4).flatMap (fun c => (List.range 40).map (fun i => 0x3000 + 0x100 * c + 4 * i)) ++
  (List.range 4).flatMap (fun c => (List.range 8).map (fun i => 0x200 + 0x40 * c + 8 * i)) ++
  (List.range 4).flatMap (fun k => [0xD104 + 16 * k, 0xD108 + 16 * k]) ++
  (List.range 16).map (fun e => 0x4018 + 32 * e) ++ (List.range 4).map (fun ch => 0x6010 + 8 * ch)

/-- A context state as the shadow keeps it. [DEDUCED, log 84] -/
def stateOfCode (n : Nat) : CtxState := nth .empty [.empty, .ready, .running, .draining, .stopped, .faulted] n

/-- The state of R354 as words. [DEDUCED, log 84] -/
def Core.shadow (c : Core) (gens : List Word) : List Word :=
  shadowRegs.map c.reg ++ (List.range 4).map (fun k => BitVec.ofNat 32 ((c.ctx k).state.code + put (c.ctx k).ovr.toNat 8)) ++
  (List.range 48).map (fun p => BitVec.ofNat 32 (c.sem p).value) ++ gens

/-- Registers packed into the data words of codewords of R162, each clean (R354). -/
def codewords : List Word → List (BitVec 64 × WErr)
  | [] => []
  | [a] => [(a.setWidth 64, .clean)]
  | a :: b :: t => (b ++ a, .clean) :: codewords t

/-- The registers that a shadow's codewords hold, each word corrected as a read of a memory corrects it (R162).
[DEDUCED, log 84] -/
def fromCodewords (l : List (BitVec 64 × WErr)) : List Word :=
  l.flatMap (fun x =>
    let d : BitVec 64 := match x.2.read with
      | .sym i e => eccFix x.1 i e
      | _ => x.1
    [d.setWidth 32, (d >>> 32).setWidth 32])

/-- GEN of channels 0 to 30. -/
def Die.barGens (d : Die) : List Word := (List.range 31).map (fun ch => d.reg (0x4010C + 16 * ch) &&& 0xFFFF)

/-- Every job core's shadow captured (R354, R358, R459). -/
def Die.capture (d : Die) : Die :=
  d.spanCores.foldl (fun d c => d.modRouter c.toNat (fun r => { r with shadow := some (codewords ((d.core c.toNat).shadow d.barGens)) })) d

/-- The registers and state of the shadow put back, and everything that R363 clears. [DEDUCED, log 84] -/
def Wk.applyShadow (w : Wk) (sh : List Word) : Wk :=
  let n := shadowRegs.length
  let w := (shadowRegs.zip sh).foldl (fun w x => w.setReg x.1 x.2) w
  let w := iter 4 (fun k w =>
    let x := nth 0 sh (n + k)
    let st := stateOfCode (fld x 7 0)
    w.modCtx k (fun t => { Ctx.reset with pc := t.pc, state := if st = .faulted then .ready else st, ovr := BitVec.ofNat 8 (fld x 15 8) })) w
  let w := w.onCore (fun c =>
    { c with mx := .reset, v := [], queues := [], sync0 := none, sw := none, units := [], rwaits := [], wcOrph := [], barArr := []
             sems := (List.range 48).foldl (fun t p => tset .reset t p { Sem.reset with value := (nth 0 sh (n + 4 + p)).toNat }) []
             eps := (List.range 16).foldl (fun t e => tset .reset t e { Endpoint.reset with shaper := Shaper.fill (c.epReg e 8) w.env.cyc }) []
             chans := (List.range 4).foldl (fun t ch => tset .reset t ch { Channel.reset with shaper := Shaper.fill (c.reg (0x6010 + 8 * ch)) w.env.cyc }) []
             steers := [], gateRel := [], hall := [], resp := [], rx := [], held := [], ports := [], caps := [], stale := [], sOld := [], spanArr := false, tdev := false, quiet := 0 })
  iter 7 (fun i w => w.setReg (0x824 + 4 * i) 0) w

/-- Contexts that were running before a rollback, and those that a fault had stopped, start again (R363). [DEDUCED, log 84] -/
def Wk.restartCtxs (w : Wk) (sh : List Word) : Wk :=
  iter 4 (fun k w =>
    let st := stateOfCode (fld (nth 0 sh (shadowRegs.length + k)) 7 0)
    if st = .faulted then w.startCtx k else w) w

/-! ### Attempts (R342 to R344, R358, R359) -/

/-- The GO release of an attempt (R358, R359): every span-go semaphore rises by 1, PHASE is FENCE, the time-dependent flags and the
first mark are cleared, and a held mark becomes the attempt's first. -/
def Wk.spanGo (w : Wk) : Wk :=
  let ctl := w.reg 0xE000
  let w := w.onCore (fun c => { c with tdev := false, spanArr := false, quiet := 0 })
  match w.c.semPhys (fld ctl 29 28) (fld ctl 21 16) with
  | some p => (w.addSignal p 1 (w.lsig 2 w.env.die w.env.code)).serveRWaits
  | none => w

/-- An attempt starts, in bin 0 of the learning controller (R404): a held mark is its first, and what the span-go signals of its own GO raise comes after it. -/
def Die.startAttempt (d : Die) : Die :=
  let d := (d.enterPhase 1).setReg 0xC0024 0
  let d := d.setReg 0xC0028 (match d.span.held with
    | some m => m.word
    | none => 0)
  let d := { d with span := { d.span with held := none, goTs := d.ts.toNat, goCyc := d.cyc, wdog := false, rolling := false }
                    therm := { d.therm with bin := 0, idle := [], busy := [] } }
  d.spanCores.foldl (fun d c => d.onCore c Wk.spanGo) d

/-- Is any OVER flag of a job core's context set? (R197) -/
def Die.anyOver (d : Die) : Bool := d.spanCores.any (fun c => (List.range 4).any (fun k => ((d.core c.toNat).ctx k).ovr != 0))

/-- A stop made pending: a late report goes before a stop request (R376). [DEDUCED, log 81] -/
def Die.pendStop (d : Die) (cond : Nat) (st : Status) : Die :=
  match d.span.stop with
  | some (c, _) => if c = 0 ∧ cond ≠ 0 then { d with span := { d.span with stop := some (cond, st) } } else d
  | none => { d with span := { d.span with stop := some (cond, st) } }

/-- A condition of the recovery guarantee found broken: it stops the job, whatever stop was pending for the next commit (R374, R375).
[DEDUCED, log 81] -/
def Die.breaks (d : Die) (cond : Nat) (st : Status) : Die := { d with span := { d.span with stop := some (cond, st) } }

/-- The broken condition that stops the job in DRAIN or RESTORE: not a stop request and not a late report, which stop it in GO, after a
commit (R375, R376). -/
def Die.broken (d : Die) : Option (Nat × Status) :=
  match d.span.stop with
  | some (c, st) => if c = 0 ∨ c = 2 then none else some (c, st)
  | none => none

/-- COMMIT_RELEASE (R358): ACTIVE flips, the span number advances, TRIES is 0, the shadows are captured, ARR is cleared and MARK
goes to the log die; then the die arrives in GO unless a stop or a pause is pending. -/
def Die.commit (d : Die) : Die :=
  let d := d.push31
  if d.spanPhase ≠ 1 ∨ d.released31 = false then d
  else
    let s := (d.reg 0xC0004).toNat
    let d := d.passRelease
    let d := (d.setReg 0xC0000 (d.reg 0xC0000 ^^^ 0x40000000)).setNat 0xC0004 ((s + 1) % 2 ^ 32)
    let d := (d.setF 0xC0000 15 12 0).bump 0xC0034 1
    let d := d.capture
    let d := d.codes.foldl (fun d c => d.setCore c.toNat { d.core c.toNat with spanArr := false }) d
    let d := { d with span := { d.span with prev := none, prevCycles := d.cyc - d.span.goCyc, logOk := [] } }
    let d := d.sendLog 1 s
    let d := if d.anyOver then d.pendStop 0 St.SHAPE_OVER else d
    let d := d.enterPhase 2
    if d.span.stop.isSome then d
    else if d.job.pausep then { d with job := { d.job with state := 3 } }
    else d.arrive31

/-- GO_RELEASE (R358). -/
def Die.goRelease (d : Die) : Die :=
  let d := d.push31
  if d.spanPhase ≠ 2 ∨ d.released31 = false then d else d.passRelease.startAttempt

/-! ### Rollback (R362, R368, R374) -/

/-- A core's queued and accepted work discarded as a forced disable does, with nothing recorded (R199, R200, R362, R461). -/
def Wk.discardWork (w : Wk) : Wk :=
  let f := iter 5 (fun u w => w.unitForce u) w
  { f with evs := w.evs
           c := { f.c with regs := tset (coreRegReset 4) f.c.regs 4 (w.reg 4), units := w.c.units, sync0 := none, sw := none
                           ctxs := f.c.ctxs.map (fun e => (e.1, { e.2 with inblk := false, fbCnt := [], fbPend := [] })) } }

/-- The condition of the recovery guarantee that is broken before DRAIN (R362, R374): 1 or 6. -/
def Die.brokenEarly (d : Die) : Option (Nat × Status) :=
  if bit (d.reg 0xC0000) 31 = false then some (1, St.GUAR_NODET)
  else if bit (d.reg 0xC0024) 31 then some (1, St.GUAR_NONDET)
  else if d.rf 0xC0000 19 16 ≤ d.rf 0xC0000 15 12 then some (6, St.GUAR_RETRY)
  else none

/-- The first mark of the attempt, when it names a core. -/
def Die.coreMark (d : Die) : Option Mark :=
  if bit (d.reg 0xC0028) 31 ∧ d.rf 0xC0028 30 28 = 0 then some ⟨0, d.rf 0xC0028 27 16, BitVec.ofNat 16 (d.rf 0xC0028 15 0)⟩ else none

/-- A core declared failed (R368). -/
def Die.declareFailed (d : Die) (code : Nat) : Die :=
  (({ d with span := { d.span with failed := if d.span.failed.contains code then d.span.failed else d.span.failed ++ [code] } }).setReg 0xC0028
    (Mark.word ⟨0, code, St.CORE_FAILED⟩)).report 1 0 code St.CORE_FAILED 0

/-- An orphaned release sent to the whole tree. -/
def Die.sendOrphan (d : Die) : Die := (d.sendUp 31 2).sendDown 31 2

/-- ROLLBACK_ENTER (R359, R362, R368): a dirty die before its arrival, or an orphaned release in FENCE: every job core discards
its work, HOLD goes to the log die, and the die enters DRAIN, or stops when condition 1 or 6 is broken. -/
def Die.rollback (d : Die) : Die :=
  let own := bit (d.reg 0xC0028) 31 && !d.span.arrived
  if d.spanPhase ≠ 1 ∨ ¬ (own ∨ (d.bar 31).down = some true) then d
  else
    let s := (d.reg 0xC0004).toNat
    let d := d.sendOrphan
    let d := d.spanCores.foldl (fun d c => d.atCore c Wk.discardWork) d
    let d := d.codes.foldl (fun d c => d.setCore c.toNat { d.core c.toNat with spanArr := false }) d
    let d := d.bump 0xC0038 1
    let d := match d.brokenEarly with
      | some (c, st) => d.breaks c st
      | none => d
    let d := match d.coreMark, d.span.prev with
      | some m, some (n, p) => if n = s ∧ p = m ∧ m.st ≠ St.CORE_FAILED ∧ d.jobCore m.loc then d.declareFailed m.loc else d
      | _, _ => d
    let d := { d with span := { d.span with prev := d.coreMark.map (fun m => (s, m)), rolling := true, logOk := [] } }
    (d.sendLog 2 s).enterPhase 3

/-- Logical positions that a takeover shifts: from the failed one to the end of its region row (R369, R430). -/
def shifted (code : Nat) : List Nat := (List.range (12 - code % 64 % 12)).map (fun i => code + i)

/-- The N that a physical position presents: 4 with a bad cube-column (R116, R431). -/
def Die.presentsN4 (d : Die) (row pcol : Nat) : Bool := d.grid.badCol.any (fun x => x.1 == 64 * row + pcol)

/-- May the free spare of the failed core's region row take over? (R369) -/
def Die.spareOk (d : Die) (code : Nat) : Bool :=
  d.freeOf (regionRow code) && (shifted code).all (fun c =>
    !((d.core c).annex) && !(bit (nth 0 (sectWords d.job.image 1) (80 + coreIndex c / 32)) (coreIndex c % 32) &&
      d.presentsN4 (c / 64) (13 * (c % 64 / 12) + c % 64 % 12 + 1)))

/-- Condition 4 or 5, evaluated in DRAIN (R362, R374). -/
def Die.brokenLate (d : Die) : Option (Nat × Status) :=
  if d.span.failed.any (fun c => (d.core c).annex) then some (5, St.GUAR_ANNEX)
  else if d.span.failed.any (fun c => !d.spareOk c) ∨ (d.span.failed.map regionRow).eraseDups.length < d.span.failed.length then
    some (4, St.GUAR_SPARE)
  else none

/-- A spare takeover (R369): every shifted position is served by the next physical core and its router, the last by the spare, and keeps its
span shadow; the geometry table says so in one step; N of a position changes at the next bring-up only (R36). The failed physical core keeps its state at the
pass-through. [DEDUCED, log 98] [DEDUCED, log 129] -/
def Die.takeover (d : Die) (code : Nat) : Die :=
  let rr := regionRow code
  let cs := shifted code
  let last := code + cs.length - 1
  let lost := d.core code
  let spare := tget .reset d.spares rr
  let d := cs.foldl (fun (e : Die) c => e.setCore c (if c = last then spare else d.core (c + 1))) d
  let d := { d with spares := tset .reset d.spares rr lost }
  let rs := cs.map (fun c => (c, if c = last then [] else (d.router (c + 1)).regs))
  let d := rs.foldl (fun d x => d.modRouter x.1 (fun r => { r with regs := x.2 })) d
  let d := (d.setF (0x10080 + 4 * (rr / 4)) (8 * (rr % 4) + 7) (8 * (rr % 4)) (code % 64 % 12)).setF 0x10008 7 0 (d.rf 0x10008 7 0 - 1)
  d.setNat 0x10004 ((d.rf 0x10004 15 0 + 1) % 65536)

/-- A bank that is to wake has woken. -/
def Wk.bankWoken (w : Wk) (m b : Nat) : Wk :=
  if (w.c.bank m b).waits then w.onCore (fun c => { c with banks := tset .off c.banks (bankKey m b) .on }) else w

/-- One line of a core's memory as the restore copy writes it, once its bank has woken (R161, R348). [DESIGN CHOICE, log 79] -/
def Die.restoreLine (d : Die) (c : CoreCode) (m o : Nat) (line : BitVec 512) : Die :=
  d.atCore c (fun w => ((w.bankWoken m (w.bankAt m o)).writeMem m portDma ((leBytes 64 line.toNat).mapIdx (fun i b => (o + i, b, 0xFF)))).1)

/-- The lines that a core's restore entries name, in entry order: memory and offset (R348, R379). -/
def Core.restoreLines (c : Core) : List (Nat × Nat) :=
  (List.range 8).flatMap (fun e =>
    let ctl := c.reg (0xE040 + 16 * e)
    if bit ctl 31 then (List.range (fld (c.reg (0xE044 + 16 * e)) 17 6)).map (fun i => (fld ctl 29 28, 64 * fld ctl 16 6 + 64 * i)) else [])

/-- The fabric address of a place of an Attic region: its offset in 64-byte units within the region's window (R345, R378). -/
def Die.atticAddr (d : Die) (r off : Nat) : Nat :=
  d.addr.toNat * 2 ^ 48 + 0x100000000000 + d.rf (0xC0100 + 16 * r) 4 0 * 2 ^ 37 + 64 * off

/-- Where the committed half of a double-buffered region begins (R345). -/
def Die.committed (d : Die) (r : Nat) : Nat :=
  (d.reg ((if bit (d.reg 0xC0000) 30 then 0xC0108 else 0xC0104) + 16 * r)).toNat

/-- What a restore reads of the Attic, as fabric addresses and counts of lines: the image copy, and for every restore entry of every job core
its range of the committed half, in the order in which the lines are written (R345, R348, R362). -/
def Die.restoreReads (d : Die) : List (Nat × Nat) :=
  ((List.range 16).filter (fun r => fld (d.reg (0xC0100 + 16 * r)) 31 30 == 3)).map (fun r =>
      (d.atticAddr r (d.reg (0xC0104 + 16 * r)).toNat, ceilDiv (4 * d.job.image.length) 64)) ++
    d.spanCores.flatMap (fun c =>
      let k := d.core c.toNat
      (List.range 8).filterMap (fun e =>
        let ctl := k.reg (0xE040 + 16 * e)
        if bit ctl 31 then
          some (d.atticAddr (fld ctl 27 24) (d.committed (fld ctl 27 24) + (k.reg (0xE048 + 16 * e)).toNat), fld (k.reg (0xE044 + 16 * e)) 17 6)
        else none))

/-- Every restore entry of every job core copied from the lines that the committed half returns, in ascending core (R362).
[DESIGN CHOICE, log 79] -/
def Die.restoreAll (d : Die) (lines : List (BitVec 512)) : Die :=
  let targets := d.spanCores.flatMap (fun c => (d.core c.toNat).restoreLines.map (fun l => (c, l)))
  (targets.zip lines).foldl (fun d x => d.restoreLine x.1.1 x.1.2.1 x.1.2.2 x.2) d

/-- One job core reloaded from the image and its shadow (R362, R363). -/
def Die.recoverCore (d : Die) (c : CoreCode) : Die :=
  match (d.router c.toNat).shadow with
  | none => d
  | some cw =>
    let sh := fromCodewords cw
    let idle (w : Wk) : Wk := iter 4 (fun k w => w.modCtx k (fun t => { t with state := .empty })) w
    let d := (d.atCore c idle).reloadCore c.toNat
    let d := d.atCore c (fun w => (w.applyShadow sh).restartCtxs sh)
    (List.range 31).foldl (fun d ch => (d.setF (0x4010C + 16 * ch) 31 30 0).setF (0x4010C + 16 * ch) 15 0
      (nth 0 sh (shadowRegs.length + 52 + ch)).toNat) d

/-- The RESTORE step (R362): takeovers, reloads, shadows and restore copies. `bad` is a read of the
committed half or the image copy that failed (condition 3). -/
def Die.restore (d : Die) (lines : List (BitVec 512)) (bad takes : Bool) : Die :=
  let failed := if takes then d.span.failed else []
  let d := failed.foldl (fun d c => (d.takeover c).bump 0xC003C 1) d
  let d : Die := { d with span := { d.span with failed := d.span.failed.filter (fun c => !failed.contains c) } }
  if bad then d.breaks 3 St.GUAR_ATTIC
  else
    let cs := d.spanCores
    let cs := cs ++ (failed.flatMap shifted).filterMap (fun (c : Nat) =>
      let cc : CoreCode := BitVec.ofNat 12 c
      if d.jobCore c ∧ ¬ cs.contains cc then some cc else none)
    let d := cs.foldl Die.recoverCore d
    let d := (List.range 31).foldl (fun d ch => d.modBar ch (fun _ => .reset)) d
    let d := { d with span := { d.span with reads := d.restoreReads } }
    d.restoreAll lines

/-- What a die does of itself in GO, DRAIN and RESTORE (R358, R362, R460): it arrives once its step is done, or finds a condition
broken. [DESIGN CHOICE, log 85] -/
def Die.advance31 (d : Die) : Die :=
  if d.span.arrived ∨ d.broken.isSome then d.push31
  else match d.spanPhase with
  | 3 =>
    if d.drained ∧ d.logAnswered 2 then
      match d.brokenLate with
      | some (c, st) => d.breaks c st
      | none => d.arrive31
    else d
  | 4 => if d.logAnswered 3 then d.arrive31 else d
  | _ => d.push31

/-- DRAIN_RELEASE (R362): the die restores and sends REWIND; `lines` is what its reads of the committed half return.
[DESIGN CHOICE, log 79] -/
def Die.drainRelease (d : Die) (lines : List (BitVec 512)) (bad : Bool) : Die :=
  let d := d.advance31
  if d.spanPhase ≠ 3 ∨ d.released31 = false then d
  else
    let d := (d.passRelease.enterPhase 4).restore lines bad true
    if d.broken.isSome then d else d.sendLog 3 (d.reg 0xC0004).toNat

/-- RESTORE_RELEASE (R362): TRIES rises by 1 and the replay's GO release is performed. -/
def Die.restoreRelease (d : Die) : Die :=
  let d := d.advance31
  if d.spanPhase ≠ 4 ∨ d.released31 = false then d
  else (d.passRelease.setF 0xC0000 15 12 (d.rf 0xC0000 15 12 + 1)).startAttempt

/-! ### Stops (R361, R375, R376) -/

/-- Every job context STOPPED (R375, R461). -/
def Wk.stopAll (w : Wk) : Wk :=
  let w := w.discardWork
  iter 4 (fun k w => w.modCtx k (fun t => match t.state with
    | .empty => t
    | _ => { t with state := .stopped, inblk := false, stopping := false })) w

/-- The job stopped: CTL_SPAN_STOP, CTL_SPAN_STOPNUM, PHASE STOPPED, the alert and the fault (R374 to R376, R475).
[DEDUCED, log 81] -/
def Die.stopJob (d : Die) (cond : Nat) (st : Status) (src loc : Nat) : Die :=
  let d := d.setNat 0xC002C (put 1 31 + put cond 28 + st.toNat)
  let d := d.setNat 0xC0030 (((d.reg 0xC0004).toNat + 2 ^ 32 - 1) % 2 ^ 32)
  let d := (d.enterPhase 5).setFlag 0x1C0050 5
  let d := { d with span := { d.span with stop := none, rolling := false, held := none, failed := [], log := [] } }
  d.report 2 src loc st 0

/-- JOB_STOP (R375, R376): a stop that is pending in GO, or a condition broken in DRAIN or RESTORE, is sent on channel 31 and
recorded; a stop received from another die is recorded as SPAN_PEER. [DEDUCED, log 81] -/
def Die.jobStop (d : Die) (fromModule : Nat) : Die :=
  let ph := d.spanPhase
  if ph < 2 ∨ 4 < ph then d
  else
    let peer := (d.bar 31).down == some true
    match (if peer then some (7, St.SPAN_PEER) else if ph = 2 then d.span.stop else d.broken) with
    | none => d
    | some (cond, st) =>
      let d := d.sendOrphan
      let d := d.spanCores.foldl (fun d c => d.atCore c Wk.stopAll) d
      let d := d.stopJob cond st (if peer then 4 else 6) (if peer then fromModule else 0)
      { d with job := if d.job.state = 2 ∨ d.job.state = 3 then { d.job with state := 4, pausep := false } else d.job }

/-- Is a span running, committing or recovering? -/
def Die.spanLive (d : Die) : Bool := decide (1 ≤ d.spanPhase) && decide (d.spanPhase ≤ 4)

/-- SPAN_STOP (R376). -/
def Die.spanStop (d : Die) : Die := if d.spanLive then d.pendStop 0 St.SPAN_SWSTOP else d

/-- SPAN_ROLL (R360). -/
def Die.spanRoll (d : Die) (port : Nat) : Die := if d.spanLive then d.spanFault 5 port St.SPAN_SWROLL else d

/-- SPAN_FAIL (R368). -/
def Die.spanFail (d : Die) (port code : Nat) : Die :=
  if d.spanLive ∧ d.jobCore code then
    let d := { d with span := { d.span with failed := if d.span.failed.contains code then d.span.failed else d.span.failed ++ [code] } }
    (d.dirty 0 code St.CORE_FAILED).report 1 5 port St.CORE_FAILED 0
  else d

/-- SPAN_LATE (R361). -/
def Die.spanLate (d : Die) : Die := if d.spanLive then d.pendStop 2 St.GUAR_LATE else d

/-- The log die's status as the die reads it (R497). -/
def logStatus (s : Nat) : Status :=
  let st : Status := BitVec.ofNat 16 s
  if st = St.OK ∨ st = St.LOG_BAD then st else St.LOG_LOST

/-- A reply from the log die taken up (R361, R366): 1 MARK, 2 HOLD, 3 REWIND. -/
def Die.logReply (d : Die) (lop s : Nat) : Die :=
  if d.span.log.any (fun x => x.1 == lop) = false then d
  else
    let st := logStatus s
    let d := { d with span := { d.span with log := d.span.log.filter (fun x => x.1 != lop) } }
    if st = St.OK then { d with span := { d.span with logOk := d.span.logOk ++ [lop] } }
    else if lop = 1 ∧ st = St.LOG_BAD then
      ((d.report 1 6 0 St.LOG_BAD 0).pendStop 2 St.GUAR_LATE)
    else (d.report (if st = St.LOG_LOST then 2 else 1) 6 0 st 0).breaks 6 St.GUAR_LOG

/-- LOG_REPLY_TIMEOUT (R366). -/
def Die.logTimeout (d : Die) (lop : Nat) : Die :=
  match d.span.log.find? (fun x => x.1 == lop) with
  | none => d
  | some x =>
    if d.ts.toNat < x.2.2 then d
    else
      let d := { d with span := { d.span with log := d.span.log.filter (fun x => x.1 != lop) } }
      if lop = 1 then d.report 0 6 0 St.LOG_TIMEOUT 0 else d.breaks 6 St.GUAR_LOG

/-- CTL_SPAN_STAT as it reads (R377). -/
def Die.viewSpanStat (d : Die) : Word :=
  BitVec.ofNat 32 (put (d.rf 0xC0024 31 31) 31 + put (b2n (bit (d.reg 0xC0028) 31 || d.span.held.isSome)) 30 + put (b2n d.span.arrived) 29
    + d.cores.countP (fun e => e.2.spanArr))

end Sys2Proof.Machine
end

