-- ==== Sys2Proof/Machine/Therm.lean ====
section
/-! DEFINITION. The Thermostat: P-states, regions, the load-step envelope, the swing limiter, the caps, the learning controller,
the sensors and the shutdown sequence (R380 to R413). -/

namespace Sys2Proof.Machine

/-! ### Records -/

/-- A bit of CTL_ALERT set by its event (R475). -/
def Die.alert (d : Die) (b : Nat) : Die := d.setFlag 0x1C0050 b

/-- A throttle reason active or not: ACT shows it and SEEN keeps it (R411). -/
def Die.reason (d : Die) (i : Nat) (on : Bool) : Die :=
  let d := d.setF 0x100058 i i (b2n on)
  if on then d.setFlag 0x100058 (16 + i) else d

/-! ### Voltage and P-states (R385 to R388) -/

/-- The voltage commanded at a P-state: min(900, VBASE + M) mV (R386). -/
def Die.voltage (d : Die) (k : Nat) : Nat := min 900 (nth 0 d.fuses.vbase k + d.rf 0x100028 7 0)

/-- A Vout write sent: THM_VOUT shows it and the step waits for the regulator (R386, R387). -/
def Die.sendVout (d : Die) (up : Bool) (k : Nat) : Die :=
  let old := d.rf 0x100024 15 0
  let new := d.voltage k
  let d := (d.setNat 0x100024 new).setF 0x100020 9 9 1
  { d with therm := { d.therm with step := .vout up 0 (if old ≤ new then new - old else old - new) } }

/-- A glide to the adjacent P-state in TGT starts (R381). -/
def Die.startGlide (d : Die) (up : Bool) : Die :=
  let d := (d.setF 0x100020 8 8 1).setF 0x100020 9 9 0
  { d with therm := { d.therm with step := .glide up d.cyc } }

/-- The step ends. -/
def Die.stepDone (d : Die) : Die :=
  let d := (d.setF 0x100020 9 8 0).setF 0x100020 7 4 d.pstate
  { d with therm := { d.therm with step := .idle } }

/-- The weight in mA of an engine of a core at a P-state: D sixteenths of it under a learned ceiling D (R393, R404).
[DESIGN CHOICE, log 86] -/
def Die.weightOf (d : Die) (code u k : Nat) : Nat := Config.weight u k * d.learnDuty (regionOf code) / 16

/-- The sum of the weights in mA of the engines and cells that `f` takes, at a P-state. -/
def Die.drawn (d : Die) (f : Ballast → Bool) (k : Nat) : Nat :=
  d.cores.foldl (fun a e => e.2.ballast.foldl (fun a b => if f b.2 then a + d.weightOf e.1 b.1 k else a) a) 0

/-- Does an engine or its cell draw current? (R395) -/
def Ballast.draws : Ballast → Bool
  | .active _ | .engaged _ => true
  | _ => false

/-- Is a cell engaged? -/
def Ballast.isEngaged : Ballast → Bool
  | .engaged _ => true
  | _ => false

/-- Has a cell been engaged for BHOLD µs since cycle `t`? (R397) -/
def Die.heldLong (d : Die) (t : Nat) : Bool := decide (d.rf 0x100014 19 0 * (6 + d.pstate) * 200 ≤ (d.cyc - t) * 3)

/-- The base current in mA of the regions that are on and of mesh and Porches (R393). -/
def Die.baseAt (d : Die) (k : Nat) : Nat := Config.baseCurrent (bitsOf 16 d.regionOn) k

/-- The modelled current in mA at a P-state: base currents, active engines and engaged cells (R393). -/
def Die.currentAt (d : Die) (k : Nat) : Nat := d.baseAt k + d.drawn Ballast.draws k

/-- The part that engaged cells draw. -/
def Die.ballastAt (d : Die) (k : Nat) : Nat := d.drawn Ballast.isEngaged k

/-- The current the work draws by itself: no cell that only the swing limiter keeps engaged (R397, R399). -/
def Die.workAt (d : Die) (k : Nat) : Nat :=
  d.baseAt k + d.drawn (fun b => match b with
    | .active _ => true
    | .engaged t => !d.heldLong t
    | _ => false) k

/-- The estimated power in mW of a current at a P-state: modelled current × commanded voltage × gain (R412). -/
def Die.powerOf (d : Die) (i k : Nat) : Nat := i * d.voltage k / 1000 * d.therm.gain / 10000

/-- The estimated power in mW at a P-state (R412). -/
def Die.powerAt (d : Die) (k : Nat) : Nat := d.powerOf (d.currentAt k) k

/-- JFLOOR: the lowest P-state whose frequency reaches the plan's floor clock, 0 when no job runs (R410). -/
def Die.jfloor (d : Die) : Nat :=
  if d.job.state = 2 then (findIdxFrom (fun k => decide (3 * d.job.floor ≤ (6 + k) * 200)) 0 16).getD 15 else 0

/-- CAP and WIN (R401). [DEDUCED, log 87] -/
def Die.cap (d : Die) : Nat := d.rf 0x100004 24 16 * 1000

/-- Does a current keep IMAX? (R403) -/
def Die.iccOk (d : Die) (i : Nat) : Bool := decide (i ≤ 1000 * d.rf 0x100010 9 0)

/-- Does a current at a P-state keep PAVG at CAP or below? (R401) [DEDUCED, log 87] -/
def Die.capOk (d : Die) (i k : Nat) : Bool :=
  let win := max 1 (d.rf 0x100004 15 0)
  decide (d.therm.pavg / 1000 * (win - 1) + d.powerOf i k ≤ win * d.cap)

/-- The swing limiter's band B in mW (R399). -/
def Die.band (d : Die) : Nat := d.cap / 200

/-- Is the swing limiter on? (R400) -/
def Die.swingOn (d : Die) : Bool := d.rf 0x100008 7 0 != 0

/-- Does the power at a P-state keep to the swing limiter's band above the tracked level? (R399) -/
def Die.swingOk (d : Die) (k : Nat) : Bool := !d.swingOn || decide (d.powerAt k ≤ d.therm.level + d.band)

/-- Is a P-state within CAP, IMAX and the swing limiter's band? (R399, R401, R403) [DEDUCED, log 87] -/
def Die.within (d : Die) (k : Nat) : Bool := d.iccOk (d.currentAt k) && d.capOk (d.currentAt k) k && d.swingOk k

/-- Does a current at the present P-state keep the power at T − B or above? (R399) -/
def Die.aboveBand (d : Die) (i : Nat) : Bool := !d.swingOn || decide (d.therm.level ≤ d.powerOf i d.pstate + d.band)

/-- The highest P-state that every limit allows but reason `i` of R411: the ceilings of the thermal throttle, of ageing, of the regulator
and PCEIL, then CAP, IMAX and the swing band (R388, R406, R409, R413). [DEDUCED, log 87] -/
def Die.bestBut (d : Die) (i : Nat) : Nat :=
  let lim (r ceil : Nat) : Nat := if i = r then 15 else ceil
  let top := min (min (lim 7 (d.rf 0x10000C 11 8)) (lim 6 (d.rf 0x100028 11 8))) (min (lim 2 d.therm.thermCeil) (lim 8 d.therm.avsCeil))
  ((List.range (top + 1)).reverse.find? (fun k =>
    (i == 0 || d.capOk (d.currentAt k) k) && (i == 1 || d.iccOk (d.currentAt k)) && (i == 3 || d.swingOk k))).getD 0

/-- The P-state every ceiling allows (R409): reason 4, the envelope, bars none. -/
def Die.bestState (d : Die) : Nat := d.bestBut 4

/-- The P-state the work would run at with no swing limiter (R399). -/
def Die.freeState (d : Die) : Nat := d.bestBut 3

/-- The reasons that hold the die below a higher P-state, or, at P-state 0, its duty below 16 (R411). [DEDUCED, log 87] -/
def Die.throttleReasons (d : Die) : Die :=
  let best := d.bestState
  let low := decide (d.rf 0x100020 20 16 < 16)
  [0, 1, 2, 3, 6, 7, 8].foldl (fun e i => e.reason i (decide (best < d.bestBut i) ||
    (low && ((i == 0 && !d.capOk (d.currentAt 0) 0) || (i == 1 && !d.iccOk (d.currentAt 0)) || (i == 3 && !d.swingOk 0))))) d

/-- The floor and its episodes (R410). -/
def Die.floorStep (d : Die) : Die :=
  let f := max (d.rf 0x10000C 3 0) d.jfloor
  let unmet := decide (d.pstate < f) || decide (d.rf 0x100020 20 16 < 16)
  let d := d.reason 9 unmet
  match d.therm.unmet, unmet with
  | none, true => (({ d with therm := { d.therm with unmet := some d.ts.toNat } }).alert 1).thmErr 0 St.POLICY_UNMET
  | some t, false => ({ d with therm := { d.therm with unmet := none } }).setNat 0x10005C (min (2 ^ 32 - 1) ((d.ts.toNat - t) / 100))
  | _, _ => d

/-- TLIM in 0.25 °C (R406). -/
def Die.tlim (d : Die) : Nat := 4 * min 105 (d.rf 0x100018 7 0)

/-- THERMOSTAT_CONTROL_POINT (R387, R388, R389, R406): every 100 µs the throttle's ceiling moves, the P-state is chosen, and at most
one step starts: up, down, or a Vout write that a change of the margin or a regulator that failed calls for (R388, R413). -/
def Die.controlPoint (d : Die) : Die :=
  let n := d.ts.toNat / 10000
  if n ≤ d.therm.control ∨ d.meshOn = false then d
  else
    let cur := d.pstate
    let t := d.therm
    let cool := decide ((BitVec.ofNat 16 (d.rf 0x100038 15 0)).toInt < (d.tlim : Int) - 12)
    let ceil := if t.hot then cur - 1
      else if cool ∧ t.thermCeil < 15 ∧ t.raised + 100000 ≤ d.ts.toNat then t.thermCeil + 1 else t.thermCeil
    let d := { d with therm := { t with control := n, thermCeil := ceil, raised := if ceil = t.thermCeil then t.raised else d.ts.toNat } }
    let d := d.floorStep
    if d.boot.firstCommit = false ∨ d.therm.step ≠ .idle then d
    else
      let best := d.bestState
      let d := d.throttleReasons
      if cur < best then (d.setF 0x100020 7 4 (cur + 1)).sendVout true (cur + 1)
      else if best < cur then (d.setF 0x100020 7 4 (cur - 1)).startGlide false
      else if d.therm.avsCeil < 15 ∨ d.rf 0x100024 15 0 ≠ d.voltage cur then d.sendVout false cur
      else d

/-- AVS_VOUT_ACK (R387, R388): the regulator's answer to a Vout write. After three tries without one, AVS_ERR: a step up is given up
and the higher P-states are unavailable, a step down keeps its frequency. -/
def Die.avsAck (d : Die) (ok : Bool) : Die :=
  match d.therm.step with
  | .vout up tries dv =>
    if ok then { d with therm := { d.therm with step := .settle up d.ts.toNat dv, avsCeil := 15 } }
    else if tries < 2 then { d with therm := { d.therm with step := .vout up (tries + 1) dv } }
    else
      let d := if up then { d with therm := { d.therm with avsCeil := d.pstate } } else d
      ((d.stepDone).alert 3).thmErr 0 St.AVS_ERR
  | _ => d

/-- AVS_SETTLE_DONE (R387): 1 µs + |ΔV| ÷ SLEW after the acknowledgement. [DESIGN CHOICE, log 4] -/
def Die.settleDone (d : Die) : Die :=
  match d.therm.step with
  | .settle up t dv =>
    if d.ts.toNat < t + 100 + ceilDiv (100 * dv) (max 1 (d.rf 0x10001C 15 8)) then d
    else if up then d.startGlide true else d.stepDone
  | _ => d

/-- GLIDE_COMPLETE (R381, R387): 1,024 cycles; a step down then lowers the voltage. [DESIGN CHOICE, log 13] -/
def Die.glideDone (d : Die) : Die :=
  match d.therm.step with
  | .glide up t =>
    if d.cyc < t + 1024 then d
    else
      let d := d.setF 0x100020 3 0 (d.rf 0x100020 7 4)
      if up then d.stepDone else (d.setF 0x100020 8 8 0).sendVout false d.pstate
  | _ => d

/-! ### Regions (R390, R391) -/

/-- The state of a region. -/
def Die.region (d : Die) (r : Nat) : Region := tget .off d.therm.regions r

/-- A region's state set. -/
def Die.setRegion (d : Die) (r : Nat) (x : Region) : Die := { d with therm := { d.therm with regions := tset .off d.therm.regions r x } }

/-- The cores of a region lost. -/
def Die.dropRegion (d : Die) (r : Nat) : Die :=
  { d with cores := tdrop d.cores (fun c => regionOf c == r)
           spares := tdrop d.spares (fun rr => 4 * (rr / 4 / 12) + rr % 4 == r) }

/-- Is this Hallway message a WAIT_REPLY? (R277) -/
def Flit.isWaitReply (f : Flit) : Bool := f.h.vc == 0 && f.h.kind == 3 && fld (f.word 0) 63 60 == 3

/-- What a core leaves behind when it is reset: what it held is orphaned, every remote-wait entry is answered, and the replies enter the mesh
before the core is gone (R285, R286). -/
def Wk.leave (w : Wk) : Wk :=
  let w := iter 4 (fun k w => w.orphanCtx k) w
  let w := iter 16 (fun i w =>
    match w.c.rwait i with
    | some r => (w.setRWait i none).waitReply r St.ORPHANED
    | none => w) w
  (w.c.hall.filter Flit.isWaitReply).foldl (fun w f => w.raise (.inject 0 f)) (w.onCore (fun c => { c with hall := [] }))

/-- The die as it would be without the cores of a region. -/
def Die.withoutRegion (d : Die) (r : Nat) : Die := { d with cores := d.cores.filter (fun e => regionOf e.1 != r) }

/-- The next written change is served, one region at a time in ascending index (R390); a region is put to sleep only once that leaves the
power at T − B or above (R399). -/
def Die.serveRegions (d : Die) : Die :=
  let busy := (List.range 16).any (fun r => match d.region r with
    | .waking _ _ | .sleeping _ _ => true
    | _ => false)
  if busy then d
  else match (List.range 16).find? (fun r => bit (d.reg 0x100030) r != d.regionOn r) with
    | none => d
    | some r =>
      if d.regionOn r then
        if d.aboveBand (Config.baseCurrent (bitsOf 16 (fun i => i != r && d.regionOn i)) d.pstate + (d.withoutRegion r).drawn Ballast.draws d.pstate) = false then d
        else
        let d := (d.codes.filter (fun c => regionOf c.toNat == r)).foldl (fun d c => d.onCore c Wk.leave) d
        d.setRegion r (.sleeping d.ts.toNat d.cyc)
      else d.setRegion r (.waking d.ts.toNat d.cyc)

/-- REGION_CTL_WRITE (R390, R391): the change is queued; a region with a running context may not be put to sleep. -/
def Die.regionCtl (d : Die) (v : Word) : Die × Status :=
  if (List.range 16).any (fun r => bit (d.reg 0x100030) r && !bit v r && d.regionBusy r) then
    (d.thmErr 0 St.CTX_STATE, St.CTX_STATE)
  else ((d.setReg 0x100030 (v &&& 0xFFFF)).serveRegions, St.OK)

/-- REGION_WAKE_COMPLETE (R390): 12 µs for the switches, 4 µs for the loop and 1,537 cycles after the wake began; its cores are in
reset, every context EMPTY and every bank off. [DESIGN CHOICE, log 4] [DEDUCED, log 88] -/
def Die.wakeDone (d : Die) (r : Nat) : Die :=
  match d.region r with
  | .waking t _ =>
    if (d.ts.toNat - t) * (2 * (6 + d.pstate)) < 1600 * (2 * (6 + d.pstate)) + 1537 * 3 then d
    else ((d.dropRegion r).setRegion r .on).serveRegions
  | _ => d

/-- REGION_SLEEP_COMPLETE (R391): memories and core registers are lost. [DEDUCED, log 88] -/
def Die.sleepDone (d : Die) (r : Nat) : Die :=
  match d.region r with
  | .sleeping _ _ => ((d.dropRegion r).setRegion r .off).serveRegions
  | _ => d

/-- THM_REGION_STAT as it reads (R414). -/
def Die.viewRegions (d : Die) : Word :=
  BitVec.ofNat 32 (bitsOf 16 d.regionOn + put (bitsOf 16 (fun r => match d.region r with
    | .waking _ _ | .sleeping _ _ => true
    | _ => bit (d.reg 0x100030) r != d.regionOn r)) 16)

/-! ### The envelope (R394 to R397, R402) -/

/-- ΔI in mA: 60 A/µs over 64 cycles, at 1.02 times the last frequency once the reference is lost (R383, R394). -/
def Die.deltaI (d : Die) : Nat := if d.boot.refOk then 57600 / (6 + d.pstate) else 57600 * 50 / (51 * (6 + d.pstate))

/-- The learned ceilings in force move by one sixteenth towards those of the running bin: 16 with no job, with LEARN_EN 0 or while the floor
is not met (R404, R405). -/
def Die.moveDuties (d : Die) : Die :=
  let on := bit (d.reg 0x100000) 31 && d.job.state == 2 && d.therm.unmet.isNone
  let force := iter 16 (fun r t =>
    let cur := d.learnDuty r
    let want := if on then tget 16 d.therm.duty (16 * r + d.therm.bin) else 16
    tset 16 t r (if cur < want then cur + 1 else cur - (if want < cur then 1 else 0))) d.therm.force
  ({ d with therm := { d.therm with force := force } }).reason 5 (force.any (fun e => decide (e.2 < 16)))

/-- Is a glide, a slew, or a region's wake or sleep in progress? -/
def Die.transition (d : Die) : Bool :=
  d.therm.step != .idle || (List.range 16).any (fun r => match d.region r with
    | .waking _ _ | .sleeping _ _ => true
    | _ => false)

/-- Start grants within a budget, in order (R397): the state, what is left of the budget, and whether an engine still waits.
[DESIGN CHOICE, log 44] -/
def Die.grantStarts (d : Die) (budget : Nat) : Die × Nat × Bool :=
  let order := (List.range 2304).map (fun i => (d.therm.next + 1 + i) % 2304)
  let listed := order.filter (fun k => d.cores.any (fun e => e.1 == coreOfIndex k && e.2.ballast.any (fun b => b.2 == .waiting)))
  listed.foldl (fun (x : Die × Nat × Bool) k =>
    (List.range 4).foldl (fun (x : Die × Nat × Bool) u =>
      let c := x.1.core (coreOfIndex k)
      if x.2.2 ∨ tget .released c.ballast u ≠ .waiting then x
      else
        let wt := x.1.weightOf (coreOfIndex k) u x.1.pstate
        if wt ≤ x.2.1 then
          let d := x.1.setCore (coreOfIndex k) { c with ballast := tset .released c.ballast u (.active x.1.cyc) }
          ({ d with therm := { d.therm with next := k } }, x.2.1 - wt, false)
        else (x.1, x.2.1, true)) x) (d, budget, false)

/-- Ballast cells released within a budget, in the order they became eligible, those of a region on its way to sleep at once (R391, R397);
the swing limiter keeps engaged what holds the power at T − B (R399). -/
def Die.releaseCells (d : Die) (budget : Nat) : Die :=
  let leaving (c : Nat) : Bool := match d.region (regionOf c) with
    | .sleeping _ _ => true
    | _ => false
  let cells : List (Nat × Nat × Nat) := d.cores.flatMap (fun e => e.2.ballast.filterMap (fun b => match b.2 with
    | .engaged t => if leaving e.1 || d.heldLong t then some (if leaving e.1 then 0 else t, e.1, b.1) else none
    | _ => none))
  let sorted := cells.mergeSort (fun a b => decide (a.1 ≤ b.1))
  (sorted.foldl (fun (x : Die × Nat × Nat × Bool) c =>
    let wt := x.1.weightOf c.2.1 c.2.2 x.1.pstate
    if x.2.2.2 ∨ x.2.1 < wt ∨ (leaving c.2.1 = false ∧ x.1.aboveBand (x.2.2.1 - wt) = false) then (x.1, x.2.1, x.2.2.1, true)
    else
      let k := x.1.core c.2.1
      (x.1.setCore c.2.1 { k with ballast := tset .released k.ballast c.2.2 .released }, x.2.1 - wt, x.2.2.1 - wt, false))
    (d, budget, d.currentAt d.pstate, false)).1

/-- The swing limiter engages released cells of the regions that are on, in ascending order of core and engine within a budget, until the
power stands at T − B (R399). [DEDUCED, log 87] -/
def Die.holdCells (d : Die) (budget : Nat) : Die :=
  let now := d.currentAt d.pstate
  if d.aboveBand now then d
  else
    let cells := ((List.range 2304).map coreOfIndex).filter d.coreOn |>.flatMap (fun c => (List.range 4).map (fun u => (c, u)))
    (cells.foldl (fun (x : Die × Nat × Nat) c =>
      let k := x.1.core c.1
      let wt := x.1.weightOf c.1 c.2 x.1.pstate
      if tget .released k.ballast c.2 ≠ .released ∨ x.2.1 < wt ∨ x.1.aboveBand x.2.2 then x
      else (x.1.setCore c.1 { k with ballast := tset .released k.ballast c.2 (.engaged x.1.cyc) }, x.2.1 - wt, x.2.2 + wt)) (d, budget, now)).1

/-- Engines that have become idle, their cells engaged as Core.engine says, kept in the table (R395). -/
def Die.settleCells (d : Die) : Die :=
  d.codes.foldl (fun d c =>
    let k := d.core c.toNat
    d.setCore c.toNat { k with ballast := (List.range 4).foldl (fun t u => tset .released t u (k.engine d.cyc u)) k.ballast }) d

/-- ENVELOPE_INTERVAL (R397, R402, R403): once in 64 cycles, starts are granted and cells released within ΔI less what the
transitions set aside, the swing limiter engages what the power lacks, and the issue duty moves by at most 1. -/
def Die.envelope (d : Die) : Die :=
  let n := d.cyc / 64
  if n ≤ d.therm.interval ∨ d.meshOn = false then d
  else
    let d := { d with therm := { d.therm with interval := n } }.settleCells.moveDuties
    let budget := d.deltaI - (if d.transition then Config.setAside d.pstate else 0)
    let room := 1000 * d.rf 0x100010 9 0 - d.currentAt d.pstate
    let (d, left, full) := d.grantStarts (min budget room)
    let d := ((d.releaseCells budget).holdCells left).reason 4 full
    let duty := d.rf 0x100020 20 16
    let duty' := if d.pstate = 0 ∧ d.within 0 = false then max 1 (duty - 1) else min 16 (duty + 1)
    let d := d.setF 0x100020 20 16 duty'
    { d with therm := { d.therm with current := d.currentAt d.pstate, ballast := d.ballastAt d.pstate } }

/-! ### Power, learning and temperature (R398 to R406, R412) -/

/-- A 64-bit counter of two registers advanced. -/
def Die.add64 (d : Die) (off n : Nat) : Die :=
  let v := (d.reg off).toNat + 2 ^ 32 * (d.reg (off + 4)).toNat + n
  (d.setNat off (v % 2 ^ 32)).setNat (off + 4) (v / 2 ^ 32 % 2 ^ 32)

/-- POWER_STEP (R398, R399, R401, R412): each 1 ms, PAVG, the power, the energies, and the tracked level, which moves towards the power
that the work would draw with no limiter. [DEDUCED, log 87] -/
def Die.powerStep (d : Die) : Die :=
  let n := d.ts.toNat / 100000
  if n ≤ d.therm.power ∨ d.meshOn = false then d
  else
    let m := d.powerAt d.pstate
    let bal := d.therm.ballast * d.voltage d.pstate / 1000 * d.therm.gain / 10000
    let win := max 1 (d.rf 0x100004 15 0)
    let avg := d.therm.pavg
    let avg' := if avg ≤ 1000 * m then avg + (1000 * m - avg) / win else avg - (avg - 1000 * m) / win
    let s := d.rf 0x100008 7 0
    let stepMax := (s - 10) * d.rf 0x100004 24 16 / 100
    let t := d.therm.level
    let free := d.freeState
    let want := d.powerOf (d.workAt free) free
    let t' := if s = 0 then m else if t ≤ want then min want (t + stepMax) else max want (t - stepMax)
    let d := { d with therm := { d.therm with power := n, pavg := avg', level := t' } }
    let d := ((d.setNat 0x10003C (min m (2 ^ 20 - 1))).setNat 0x100040 (min (avg' / 1000) (2 ^ 20 - 1))).reason 3 (decide (d.bestState < free))
    (d.add64 0x100048 m).add64 0x100050 bal

/-- One more job-core cycle counted for the running bin (R404). -/
def Die.countLearn (d : Die) : Die :=
  if bit (d.reg 0x100000) 31 ∧ d.job.state = 2 then
    d.spanCores.foldl (fun d c =>
      let k := d.core c.toNat
      let bound := fld (k.reg 0xE000) 29 28
      let quiet := !(k.ctx bound).inblk && k.waiting.isEmpty
      let r := regionOf c.toNat
      { d with therm := { d.therm with busy := tmod 0 d.therm.busy r (· + 1), idle := if quiet then tmod 0 d.therm.idle r (· + 1) else d.therm.idle } }) d
  else d

/-- The new duty ceiling from the slack measured (R404): `idle` of `total` core cycles. [DESIGN CHOICE, log 114] -/
def learnCeil (old idle total : Nat) : Nat :=
  let target := if total = 0 then old else max 4 (16 - 12 * idle / total)
  ceilDiv (3 * old + target) 4

/-- LEARN_BIN (R404, R405): at the end of a phase bin each region's ceiling for it moves; when the floor is not met every ceiling
is 16. [DESIGN CHOICE, log 114] -/
def Die.learnBin (d : Die) : Die :=
  let b := d.therm.bin
  let late := if b < 15 then decide ((b + 1) * d.span.prevCycles ≤ 16 * (d.cyc - d.span.goCyc)) && decide (0 < d.span.prevCycles)
    else d.spanPhase != 1
  if bit (d.reg 0x100000) 31 = false ∨ d.job.state ≠ 2 ∨ late = false then d
  else
    let duty := iter 16 (fun r t =>
      let k := 16 * r + b
      tset 16 t k (if d.therm.unmet.isSome then 16 else learnCeil (tget 16 t k) (tget 0 d.therm.idle r) (tget 0 d.therm.busy r))) d.therm.duty
    { d with therm := { d.therm with duty := duty, bin := (b + 1) % 16, idle := [], busy := [] } }

/-- The hottest sensor of some readings, and its reading in 0.25 °C. -/
def hottest (rs : List (BitVec 16)) : Nat × BitVec 16 :=
  (rs.zipIdx).foldl (fun b x => if b.2.toInt < x.1.toInt then (x.2, x.1) else b) (0, nth 0 rs 0)

/-- SENSOR_SAMPLE (R406): every 10 µs, the readings of the 36 sensors. -/
def Die.sample (d : Die) (rs : List (BitVec 16)) : Die :=
  let n := d.ts.toNat / 1000
  if n ≤ d.therm.sampled ∨ d.meshOn = false ∨ rs.length ≠ 36 then d
  else
    let d := (rs.zipIdx).foldl (fun d x => d.setReg (0x100200 + 4 * x.2) (x.1.setWidth 32)) d
    let (s, t) := hottest rs
    let d := d.setNat 0x100038 (put s 16 + t.toNat)
    let hot := decide ((d.tlim : Int) ≤ t.toInt)
    let d := if hot ∧ d.therm.hot = false then d.alert 0 else d
    { d with therm := { d.therm with sampled := n, hot := hot, raised := if hot then d.ts.toNat else d.therm.raised } }

/-- CALIBRATION_READ (R412): every 10 ms, with CAL_EN, the gain moves towards the regulator's readings by at most 1 %.
[DEDUCED, log 90] -/
def Die.calibrate (d : Die) (iout vout : Nat) : Die :=
  let n := d.ts.toNat / 1000000
  if n ≤ d.therm.calAt ∨ bit (d.reg 0x100000) 30 = false ∨ d.meshOn = false then d
  else
    let g := d.therm.gain
    let est := d.currentAt d.pstate * d.voltage d.pstate / 1000
    let want := if est = 0 then g else iout * vout / 1000 * 10000 / est
    let g' := max (g - g / 100) (min (g + g / 100) want)
    { d with therm := { d.therm with calAt := n, gain := g' } }

/-- AGEING_PERIOD (R413): every 10 s, the smallest slack of the period against the fused thresholds. -/
def Die.ageing (d : Die) (slack : Nat) : Die :=
  let n := d.ts.toNat / 1000000000
  if n ≤ d.therm.ageAt ∨ d.meshOn = false then d
  else
    let m := d.rf 0x100028 7 0
    let d := { d with therm := { d.therm with ageAt := n } }
    let low := slack < d.fuses.low
    let d := { d with therm := { d.therm with high := if d.fuses.high < slack then d.therm.high + 1 else 0 } }
    let change (d : Die) (m : Nat) : Die :=
      let d := d.setF 0x100028 7 0 m
      if d.therm.step = .idle then d.sendVout false d.pstate else d
    if low then
      if m < 60 then change d (min 60 (m + 5))
      else
        let p := d.rf 0x100028 11 8
        (((d.setF 0x100028 11 8 (p - 1)).alert 2).reason 6 true).thmErr 0 St.AGE_LIMIT
    else if 10 ≤ d.therm.high then
      change { d with therm := { d.therm with high := 0 } } (m - 5)
    else d

/-! ### Shutdown (R383, R384, R407, R408) -/

/-- The shutdown sequence begins (R407, R408): the cause latched once, every core's work discarded, every cell engaged, the span
dirty for a trip. [DESIGN CHOICE, log 89] -/
def Die.shutDown (d : Die) (cause sensor : Nat) (st : Status) : Die :=
  if bit (d.reg 0x100064) 31 then d
  else
    let d := d.dirty 6 0 st
    let d := d.codes.foldl (fun d c => d.onCore c (fun w =>
      (iter 5 (fun u w => w.unitForce u) w).onCore (fun k =>
        { k with issueAt := 2 ^ 64, ballast := (List.range 4).foldl (fun t u => tset .released t u (.engaged w.env.cyc)) k.ballast }))) d
    let d := (d.setNat 0x100064 (put 1 31 + put sensor 8 + cause)).alert 7
    let d := d.thmErr 3 st
    { d with therm := { d.therm with shutdown := some d.ts.toNat }
             pins := if cause = 1 then { d.pins with thermtrip := .low } else d.pins }

/-- THERMAL_TRIP (R407): a comparator crosses 115 °C. [DESIGN CHOICE, log 89] -/
def Die.thermTrip (d : Die) (sensor : Nat) : Die := if d.boot.porst then d else d.shutDown 1 (sensor % 64) St.THERM_TRIP

/-- Every domain but the Cellar switched off: regions, modules, routers and what they hold. -/
def Die.domainsOff (d : Die) : Die :=
  let d := (List.range 48).foldl (fun d m => if d.modState m = 0 then d else d.setModState m 1) d
  let d := d.setReg 0x100030 0
  { d with cores := [], spares := [], routers := [], mods := [], conns := [], porchOff := [], hub := [], bars := [], celIn := [], celAt := none, celRx := [], offRx := [], openTx := [], held := []
           therm := { d.therm with regions := [], step := .idle }, pins := { d.pins with pwrEn := .low } }

/-- SHUTDOWN_COMPLETE (R407): only the Cellar domain is on. [DESIGN CHOICE, log 89] -/
def Die.shutDone (d : Die) : Die :=
  match d.therm.shutdown with
  | some _ => { d.domainsOff with therm := { d.domainsOff.therm with shutdown := none } }
  | none => d

/-- REFCLK_LOSS (R383): the timestamp is no longer valid and the shutdown sequence runs. -/
def Die.refLoss (d : Die) : Die :=
  if d.boot.porst ∨ d.boot.refOk = false then d
  else ({ d with boot := { d.boot with refOk := false } }).shutDown 3 0 St.CLK_LOSS

/-- AON_LOSS (R384). -/
def Die.aonLoss (d : Die) : Die :=
  if d.boot.porst ∨ d.boot.aonRo then d else ({ d with boot := { d.boot with aonRo := true } }).thmErr 0 St.AON_LOSS

/-- AON_RESTORE (R384). -/
def Die.aonRestore (d : Die) : Die := { d with boot := { d.boot with aonRo := false } }

/-- THM_CLK_STAT as it reads (R414). -/
def Die.viewClk (d : Die) : Word :=
  BitVec.ofNat 32 (put (b2n (d.boot.refOk && !d.boot.porst)) 2 + put (b2n d.boot.aonRo) 1 + b2n d.boot.refOk)

end Sys2Proof.Machine
end

