-- ==== Sys2Proof/Machine/Boot.lean ====
section
/-! DEFINITION. Bring-up: PORST_N and the power-good inputs, the flash and the Cellar image, self-test, the census and repair,
links, firmware and the site description (R417 to R446, R534 to R542). -/

namespace Sys2Proof.Machine

/-! ### Reset, power and the reference -/

/-- The outputs from PG_AON to the release of PORST_N (R534). [DESIGN CHOICE, log 8] -/
def Pins.reset : Pins := ⟨.low, .z, .z, .low, .high, .low, .z, .low, .high⟩

/-- The outputs while PG_AON is low: every one high-impedance (R534). -/
def Pins.unpowered : Pins := ⟨.z, .z, .z, .z, .z, .z, .z, .z, .z⟩

/-- The die with PORST_N low (R542): every register, the fault log and THM_TRIP at their reset values. [DESIGN CHOICE, log 8] -/
def Die.reset : Die :=
  { cyc := 0, fresh := [], sub := 0, ts := 0, aon := 0, aonSub := 0, regs := [], cores := [], spares := [], routers := [], celIn := [], celAt := none, celRx := [], offRx := []
    mods := [], conns := [], porchOff := [], hub := [], openTx := [], bars := [], flog := [], span := .reset, job := .none, latch := .reset
    therm := .reset, fuses := ⟨false, 0, [], [], [], 0, 0, 0, false, 0, 0, 0⟩, grid := ⟨[], [], []⟩, boot := .reset, found := []
    spdm := [], nonces := 0, pins := .reset, shadow := [], held := [], resps := [] }

/-- PORST_ASSERT (R542): the whole die is reset; PG_AON stays as it is. -/
def Die.porst (d : Die) : Die := { Die.reset with pins := if d.pins.pwrEn = .z then .unpowered else .reset }

/-- A status that halts bring-up (R418): recorded with its phase, the alert set, only the Cellar domain on. -/
def Die.halt (d : Die) (st : Status) : Die :=
  if d.phase = 15 then d
  else
    let d := d.bootErr 3 st
    ((((d.setF 0x140000 3 0 15).setF 0x140000 30 30 1).alert 4).domainsOff)

/-- A phase entered (R417). -/
def Die.enterBoot (d : Die) (p : Nat) : Die :=
  let d := d.setF 0x140000 3 0 p
  { d with boot := { d.boot with phaseTs := d.ts.toNat } }

/-- Digest bytes stored as measurement `n`, with its VALID bit (R467, R477). -/
def Die.setMeas (d : Die) (n : Nat) (bytes : List Byte) : Die :=
  let d := (List.range 12).foldl (fun d w => d.setNat (0x200000 + 64 * n + 4 * w) (leNat ((bytes.drop (4 * w)).take 4))) d
  d.setF 0x200100 n n 1

/-- A measurement as its 48 bytes. -/
def Die.meas (d : Die) (n : Nat) : List Byte := (List.range 12).flatMap (fun w => leBytes 4 (d.reg (0x200000 + 64 * n + 4 * w)).toNat)

/-- PORST_RELEASE (R417, R419, R426, R467): phase ROM begins with the fuses, the SRAM test and the straps; a reserved FMODE is read
as 0b00. -/
def Die.porstRelease (d : Die) (f : Fuses) (sramOk : Bool) (fmode : Nat) (aonv : Bool) : Die :=
  if d.boot.porst = false ∨ d.pins.pwrEn = .z then d
  else
    let mode := if fmode % 4 = 3 then 0 else fmode % 4
    let d := { d with boot := { d.boot with porst := false }, fuses := f, pins := { d.pins with flReset := .high } }
    let d := (d.setF 0x100028 7 0 f.m0).setNat 0x14000C (put (b2n aonv) 2 + mode)
    let d := d.setMeas 0 (beBytes 48 Config.romDigest.toNat)
    if f.bad then d.halt St.FUSE_BAD else if sramOk then d else d.halt St.CEL_SRAM

/-- REFERENCE_PRESENT (R417): the reference appears and phase ROM ends, or 10 ms pass without it. -/
def Die.reference (d : Die) (present : Bool) : Die :=
  if d.boot.porst ∨ d.phase ≠ 0 then d
  else if present then ({ d with boot := { d.boot with refOk := true } }).enterBoot 1
  else d.halt St.CLK_LOSS

/-! ### The flash and the Cellar image (R420 to R425, R434) -/

/-- The flash as the die finds it (R420, R421): SFDP signature and basic table, log₂ of its density, whether its tables list 8D-8D-8D
and 1-4-4, whether the comparison of each matches, and the bytes at the primary and the alternate offset. -/
structure FlashDev where
  sfdp : Bool
  dens : Nat
  octal : Bool
  quad : Bool
  octalOk : Bool
  quadOk : Bool
  primary : List Byte
  alternate : List Byte
deriving DecidableEq, Repr

/-- The mode in use and the modes rejected by comparison (R420). [DEDUCED, log 95] -/
def FlashDev.mode (f : FlashDev) (fmode : Nat) : Nat × Nat :=
  let tryQuad (rej : Nat) : Nat × Nat := if f.quad then (if f.quadOk then (1, rej) else (0, rej + 1)) else (0, rej)
  if fmode = 2 then
    if f.octal then (if f.octalOk then (2, 0) else tryQuad 1) else tryQuad 0
  else if fmode = 1 then tryQuad 0 else (0, 0)

/-- A little-endian field of `n` bytes. -/
def leAt (b : List Byte) (off n : Nat) : Nat := leNat ((b.drop off).take n)

/-- Every byte in a range zero. -/
def zeroAt (b : List Byte) (off n : Nat) : Bool := ((b.drop off).take n).all (fun x => x == 0)

/-- A section of the Cellar image: type, offset and length. -/
structure CelSect where
  typ : Nat
  off : Nat
  len : Nat
deriving DecidableEq, Repr

/-- The section entries. -/
def celSects (b : List Byte) : List CelSect :=
  (List.range (leAt b 0xC 2)).map (fun i => ⟨leAt b (0x20 + 16 * i) 2, leAt b (0x24 + 16 * i) 4, leAt b (0x28 + 16 * i) 4⟩)

/-- The section of a type. -/
def celSect (b : List Byte) (typ : Nat) : Option CelSect := (celSects b).find? (fun s => s.typ == typ)

/-- The bytes of a section. -/
def celBytes (b : List Byte) (s : CelSect) : List Byte := (b.drop s.off).take s.len

/-- The section with the highest offset. [DEDUCED, log 93] -/
def celLast (b : List Byte) : Option CelSect :=
  (celSects b).foldl (fun o s => match o with
    | some t => if t.off < s.off then some s else some t
    | none => some s) none

/-- The header's rules (R422). -/
def celHeaderOk (b : List Byte) : Bool :=
  let n := leAt b 0xC 2
  let len := leAt b 8 4
  decide (256 ≤ b.length) && leAt b 0 4 == 0x5A434C31 && leAt b 4 2 == 1 && zeroAt b 6 2 && len % 64 == 0 && decide (512 ≤ len) &&
    decide (len ≤ 0x300000) && decide (len ≤ b.length) && decide (2 ≤ n) && decide (n ≤ 14) && zeroAt b 0x14 12 &&
    zeroAt b (0x20 + 16 * n) (256 - (0x20 + 16 * n))

/-- The section table's rules (R423). The last section ends at LENGTH, its 48 bytes of CHECK rounded up to the 64 that alignment
asks for. [DEDUCED, log 93] -/
def celSectsOk (b : List Byte) : Bool :=
  let len := leAt b 8 4
  let ss := celSects b
  let has (t : Nat) : Bool := ss.any (fun s => s.typ == t)
  ss.all (fun s => s.typ == 1 || s.typ == 2 || s.typ == 3 || s.typ == 0xFE || s.typ == 0xFF) &&
    decide ((ss.map (·.typ)).eraseDups.length = ss.length) && has 1 && has 2 && (has 0xFE != has 0xFF) &&
    ss.all (fun s => s.off % 64 == 0 && decide (256 ≤ s.off) && decide (s.off + s.len ≤ len)) &&
    (List.range ss.length).all (fun i => (List.range i).all (fun j =>
      match ss[i]?, ss[j]? with
      | some x, some y => decide (x.off + x.len ≤ y.off) || decide (y.off + y.len ≤ x.off)
      | _, _ => true)) &&
    (match celLast b with
    | some s => ((s.typ == 0xFE && decide (48 ≤ s.len)) || (s.typ == 0xFF && decide (192 ≤ s.len))) && ceilDiv (s.off + s.len) 64 * 64 == len
    | none => false)

/-- The options a copy gives: word 0, or the defaults (R425). [DEDUCED, log 96] -/
def celOpts (b : List Byte) : Word :=
  match celSect b 3 with
  | some s => BitVec.ofNat 32 (leAt b s.off 4)
  | none => 0x561

/-- The rules of BOOT_OPTIONS (R425). -/
def celOptsOk (b : List Byte) : Bool :=
  match celSect b 3 with
  | none => true
  | some s =>
    let w := leAt b s.off 4
    let minr := nfld w 14 12
    let maxr := nfld w 10 8
    s.len == 64 && zeroAt b (s.off + 4) 60 && decide (minr ≤ 5) && decide (maxr ≤ 5) && decide (minr ≤ maxr)

/-- The rules of CORE_FW (R434). -/
def celFwOk (b : List Byte) : Bool :=
  match celSect b 2 with
  | none => false
  | some s =>
    let r := leAt b s.off 4
    let base := nfld r 11 0
    let limit := nfld r 27 16
    let t := leAt b (s.off + 4) 4
    decide (base ≤ limit) && decide (1 ≤ t) && decide (t ≤ 0x100000) && s.len == 64 + 8 * (limit - base + 1)

/-- The digest D (R424). -/
def celDigest (b : List Byte) : List Byte :=
  match celLast b with
  | some s => sha384 (b.take s.off)
  | none => []

/-- Digest, key, signature and security version (R424). -/
def celAuthOk (f : Fuses) (b : List Byte) : Bool :=
  match celLast b with
  | none => false
  | some s =>
    let d := celDigest b
    let body := celBytes b s
    let ver := decide (f.secmin ≤ leAt b 0xE 2)
    if s.typ = 0xFE then !f.signReq && body.take 48 == d && ver
    else BitVec.ofNat 384 (beNat (sha384 (body.take 96))) == f.khash &&
      Config.ecdsaOk (body.take 96) (BitVec.ofNat 384 (beNat d)) ((body.drop 96).take 96) && ver

/-- The checks of one copy in order (R422 to R425, R434): OK, IMG_BAD or IMG_AUTH. [DEDUCED, log 94] -/
def celCheck (f : Fuses) (b : List Byte) : Status :=
  if celHeaderOk b = false then St.IMG_BAD
  else
    let b := b.take (leAt b 8 4)
    if celSectsOk b = false then St.IMG_BAD
    else if celAuthOk f b = false then St.IMG_AUTH
    else if celOptsOk b && celFwOk b then St.OK else St.IMG_BAD

/-- The voltage and SLEW of P-state 0 sent to the regulator (R386, R417, R539). -/
def Die.bootVout (d : Die) : Die := (d.enterBoot 2).sendVout true 0

/-- An image copy taken up: the registers that describe it, measurement 1, the options and the core firmware. -/
def Die.takeImage (d : Die) (b : List Byte) (copy : Nat) : Die :=
  let b := b.take (leAt b 8 4)
  let fw := (celSect b 2).elim 0 (·.off)
  let r := leAt b fw 4
  let n := nfld r 27 16 - nfld r 11 0 + 1
  let d := d.setF 0x140010 4 4 copy
  let d := ((d.setNat 0x140014 (leAt b 0x10 4)).setNat 0x140018 (put (leAt b 0xE 2) 16 + b2n (celSect b 0xFF).isSome)).setNat 0x14001C (leAt b 8 4)
  let d := d.setMeas 1 (celDigest b)
  { d with boot := { d.boot with opts := celOpts b, core0 := nfld r 11 0, limit := nfld r 27 16, fwtime := leAt b (fw + 4) 4
                                 expect := BitVec.ofNat 32 (leAt b (fw + 8) 4)
                                 words := (List.range n).map (fun i => BitVec.ofNat 64 (leAt b (fw + 64 + 8 * i) 8)) } }

/-- FLASH_IMAGE_READ (R417, R420, R421): the device is discovered, the primary copy read and checked, and the alternate when the
device holds 32 MiB or more and the primary fails. [DEDUCED, log 94] [DEDUCED, log 95] -/
def Die.flashRead (d : Die) (f : FlashDev) : Die :=
  if d.boot.porst ∨ d.phase ≠ 1 then d
  else if f.sfdp = false then d.halt St.FLASH_NONE
  else
    let m := f.mode (d.rf 0x14000C 1 0)
    let d := d.setNat 0x140010 (put (min f.dens 29) 8 + put (b2n (decide (24 < f.dens))) 5 + put m.2 2 + m.1)
    let p := celCheck d.fuses f.primary
    if p = St.OK then (d.takeImage f.primary 0).bootVout
    else if 25 ≤ f.dens then
      let a := celCheck d.fuses f.alternate
      if a = St.OK then (d.takeImage f.alternate 1).bootVout else d.halt a
    else d.halt p

/-! ### Power (R539 to R541) -/

/-- AVS_VOUT_ACK: in phase POWER the acknowledgement of the boot voltage raises PWR_EN, and three tries without one halt the die
(R388, R417, R539); afterwards it is the answer to a step. -/
def Die.avsAnswer (d : Die) (ok : Bool) : Die :=
  if d.phase = 2 then
    match d.therm.step with
    | .vout _ tries dv =>
      if ok then { d.stepDone with pins := { d.stepDone.pins with pwrEn := .high } }
      else if tries < 2 then { d with therm := { d.therm with step := .vout true (tries + 1) dv } }
      else (d.alert 3).halt St.AVS_ERR
    | _ => d
  else d.avsAck ok

/-- Does a fused grade go with its absent rows? (R426) -/
def Fuses.gradeOk (f : Fuses) : Bool :=
  let rows := f.absent.filter (· < 48) |>.eraseDups
  match f.grade with
  | 0 => rows.isEmpty
  | 1 => rows.length == 3
  | 2 => rows.length == 12 && (List.range 4).any (fun b => rows.all (fun r => r / 12 == b))
  | _ => false

/-- POWER_GOOD_RISE (R417, R426, R539): with PWR_EN high the switched rails' power-good inputs assert; phase FUSE follows, and
SELFTEST unless the grade and the absent rows do not fit. [DESIGN CHOICE, log 92] -/
def Die.powerGood (d : Die) : Die :=
  if d.phase ≠ 2 ∨ d.pins.pwrEn ≠ .high then d
  else
    let d := d.enterBoot 3
    if d.fuses.gradeOk then d.enterBoot 4 else d.halt St.FUSE_BAD

/-- POWER_GOOD_TIMEOUT (R417, R539): phase POWER ends after 5 ms without them. -/
def Die.powerGoodLate (d : Die) : Die :=
  if d.phase = 2 ∧ d.boot.phaseTs + 500000 ≤ d.ts.toNat then d.halt St.PG_TIMEOUT else d

/-- POWER_GOOD_FALL (R541): rail 0 PG_AON, 1 PG_CEL, 2 PG_CORE, 3 PG_MESH, 4 PG_PHY, 5 PG_PHYIO; a fall of the first two acts as
PORST_N, of the others while PWR_EN is high as a halt, and the loss of PG_AON also resets the TAP and the outputs. -/
def Die.powerGoodFall (d : Die) (rail : Nat) : Die :=
  if rail = 0 then { d.porst with pins := .unpowered }
  else if rail = 1 then d.porst
  else if d.pins.pwrEn = .high then d.halt St.PG_TIMEOUT else d

/-- PG_AON_ASSERTION (R534). -/
def Die.pgAon (d : Die) : Die := if d.boot.porst then { d with pins := .reset } else d

/-! ### Self-test, the census and repair (R426 to R432) -/

/-- SELF_TEST (R417, R428): every region and bank has been woken and every unit tested; a fault that no repair can replace halts. -/
def Die.selfTest (d : Die) (finds : List Finding) (fatal : Bool) : Die :=
  if d.phase ≠ 4 then d
  else if fatal then d.halt St.BIST_FATAL
  else
    let d := d.setReg 0x100030 0xFFFF
    let d := (List.range 16).foldl (fun d r => d.setRegion r .on) d
    { d.enterBoot 5 with found := finds }

/-- Does a finding mark a unit? -/
def Finding.of (kind prow pcol sub : Nat) (f : Finding) : Bool :=
  f.kind == kind && f.prow == prow && f.pcol == pcol && (kind != 1 || f.sub == sub)

/-- Is a physical core bad as a whole in a list of findings: itself, or both its cube-columns? (R428, R429) -/
def coreBadIn (fs : List Finding) (prow pcol : Nat) : Bool :=
  fs.any (Finding.of 0 prow pcol 0) || (fs.any (Finding.of 1 prow pcol 0) && fs.any (Finding.of 1 prow pcol 1))

/-- One entry of the census as its two words (R446). -/
def censusWords (kind src act prow pcol sub cause : Nat) (dis : Bool) : Nat × Nat :=
  (put 1 31 + put kind 28 + put src 25 + put (b2n dis) 24 + put act 21 + put prow 12 + put pcol 6 + sub, cause)

/-- The lowest cause of the findings of a core's units (R446). [DEDUCED, log 99] -/
def leastCause (fs : List Finding) : Nat := fs.foldl (fun a f => if a = 0 ∨ f.cause < a then f.cause else a) 0

/-- The units that are bad, in census order: kind, physical row, column and SUB. -/
def badUnits (all : List Finding) : List (Nat × Nat × Nat × Nat) :=
  let cores := (List.range 48).flatMap (fun r =>
    if all.any (fun f => f.kind ≤ 1 ∧ f.prow = r) then
      (List.range 52).flatMap (fun c =>
        if coreBadIn all r c then [(0, r, c, 0)]
        else ((List.range 2).filter (fun s => all.any (Finding.of 1 r c s))).map (fun s => (1, r, c, s)))
    else [])
  cores ++ ((List.range 48).filter (fun m => all.any (Finding.of 2 0 m 0))).map (fun m => (2, 0, m, 0))

/-- What of a list of findings concerns a unit: for a core, everything found of it. -/
def findingsOf (fs : List Finding) (u : Nat × Nat × Nat × Nat) : List Finding :=
  if u.1 = 0 then fs.filter (fun f => f.kind ≤ 1 ∧ f.prow = u.2.1 ∧ f.pcol = u.2.2.1)
  else fs.filter (Finding.of u.1 u.2.1 u.2.2.1 u.2.2.2)

/-- What self-test gives as a unit's CAUSE; 6 joins the codes of a core whose two cube-columns are bad (R446).
[DEDUCED, log 99] -/
def causeOf (all test : List Finding) (u : Nat × Nat × Nat × Nat) : Nat :=
  let mine := findingsOf test u
  if mine.isEmpty then 7
  else
    let both := u.1 == 0 && all.any (Finding.of 1 u.2.1 u.2.2.1 0) && all.any (Finding.of 1 u.2.1 u.2.2.1 1) && mine.any (fun f => f.kind == 1)
    let own := leastCause (if u.1 = 0 then mine.filter (fun f => f.kind = 0) else mine)
    if both then (if own = 0 then 6 else min own 6) else own

/-- The bad cores of a region row: positions from 0 to 12 (R431). -/
def badPositions (badCore : List Nat) (row s : Nat) : List Nat := (List.range 13).filter (fun p => badCore.contains (64 * row + 13 * s + p))

/-- The position b and the free spare of a region row of a row not fused absent; none where the row cannot be served (R431). -/
def repairRow (repl4 : Bool) (badCore : List Nat) (badCol : List (Nat × Nat)) (row s : Nat) : Option (Nat × Bool) :=
  match badPositions badCore row s with
  | [] =>
    let four (p : Nat) : Bool := badCol.any (fun x => x.1 == 64 * row + 13 * s + p)
    if repl4 ∧ four 12 = false then
      match (List.range 13).find? four with
      | some p => some (p, false)
      | none => some (12, true)
    else some (12, true)
  | [b] => some (b, false)
  | _ => none

/-- The reported grade and the rows made absent for it, from the fused grade and the rows present (R432). -/
def chooseGrade (fused : Nat) (present : List Nat) : Nat × List Nat :=
  if fused = 0 ∧ present.length = 48 then (0, [])
  else if fused ≤ 1 ∧ 45 ≤ present.length then (1, present.drop 45)
  else
    let gone (b : Nat) : Nat := 12 - present.countP (fun r => r / 12 == b)
    let others (b : Nat) : Nat := present.countP (fun r => r / 12 != b)
    if (List.range 4).any (fun b => others b = 36) then
      let b := (List.range 4).foldl (fun a b => if gone a ≤ gone b then b else a) 0
      (2, present.filter (fun r => r / 12 == b))
    else (3, [])

/-- The geometry table written from the rows present, each region row's pass-through and free spare, the N = 4 cores and the
grade, its generation count one more (R36, R522). [DEDUCED, log 98] -/
def Die.writeGeometry (d : Die) (grade : Nat) (rows : List Nat) (brow : Nat → Nat) (free : Nat → Bool) : Die :=
  let small := grade = 2 ∨ d.fuses.grade = 2
  let gen := (d.rf 0x10004 15 0 + 1) % 65536
  let rr : List Nat := rows.flatMap (fun r => (List.range 4).map (fun s => 4 * r + s))
  let mods := (List.range 48).filter (fun m => d.modState m ≠ 0 ∨ d.phase < 7 ∧ ¬ (small ∧ 9 ≤ m % 12))
  let w (i v : Nat) (d : Die) : Die := d.setNat (0x10000 + 4 * i) v
  let d := w 0 (put 1 28 + put grade 24 + put (if small then 64 else 128) 16 + put rows.length 8) d
  let d := w 1 gen d
  let d := w 2 (put (48 * rows.length) 16 + put 192 8 + rr.countP free) d
  let d := w 5 (bitsOf 16 (fun i => rows.contains (32 + i))) (w 4 (bitsOf 32 rows.contains) d)
  let d := w 7 (bitsOf 16 (fun i => mods.contains (32 + i))) (w 6 (bitsOf 32 mods.contains) d)
  let d := (List.range 16).foldl (fun d k => w (16 + k) (put (6 + k) 16 + nth 0 d.fuses.vbase k % 65536) d) d
  let d := (List.range 48).foldl (fun d r =>
    w (32 + r) ((List.range 4).foldl (fun a s => a + put (if rows.contains r then put (b2n (free (4 * r + s))) 7 + brow (4 * r + s) else 12) (8 * s)) 0) d) d
  let four (k : Nat) : Bool :=
    let row := k / 48
    let s := k % 48 / 12
    let j := k % 12
    let b := brow (4 * row + s)
    rows.contains row && d.grid.badCol.any (fun x => x.1 == 64 * row + 13 * s + (if j < b then j else j + 1))
  (List.range 72).foldl (fun d j => w (80 + j) (bitsOf 32 (fun i => four (32 * j + i))) d) d

/-- The grade chosen, its modules made ABSENT and the table written from the rows that are served (R432). [DEDUCED, log 98] -/
def Die.regrade (d : Die) (served : List Nat) (brow : Nat → Nat) (free : Nat → Bool) : Die :=
  let g := chooseGrade d.fuses.grade served
  let rows := served.filter (fun r => !g.2.contains r)
  let d := if g.1 = 2 then (List.range 48).foldl (fun d m => if 9 ≤ m % 12 ∧ d.modState m ≠ 0 then { d.setModState m 0 with mods := tset .reset d.mods m .reset } else d) d
    else d
  let d := d.writeGeometry g.1 rows brow free
  { d.setF 0x140000 11 8 g.1 with grid := { d.grid with absent := (List.range 48).filter (fun r => !rows.contains r) } }

/-- The action that the census records for a unit (R446). [DEDUCED, log 99] -/
def Die.censusAct (d : Die) (badMods : Bool) (u : Nat × Nat × Nat × Nat) : Nat :=
  let s := u.2.2.1 / 13
  let p := u.2.2.1 % 13
  if u.1 = 2 then (if badMods then 4 else 0)
  else if d.rowPresent u.2.1 = false then 3
  else if d.passOf (4 * u.2.1 + s) = p then 1
  else if u.1 = 1 then 2 else 0

/-- The counts of the census (R445). -/
def Die.censusSum (d : Die) : Die :=
  let n4 := (List.range 72).foldl (fun a j => a + countBelow 32 (fun i => bit (d.reg (0x10140 + 4 * j)) i)) 0
  let mods := (List.range 48).countP (fun m => (d.found ++ d.fuses.defects).any (Finding.of 2 0 m 0))
  d.setNat 0x140024 (put mods 24 + put n4 12 + d.grid.badCore.length)

/-- One entry added to the census, or counted as overflow (R429). -/
def Die.addCensus (d : Die) (e : Nat × Nat) : Die :=
  let n := d.rf 0x140020 10 0
  if 1024 ≤ n then d.setF 0x140020 31 31 1
  else
    let d := ((d.setNat (0x141000 + 8 * n) e.1).setNat (0x141004 + 8 * n) e.2).setF 0x140020 10 0 (n + 1)
    if bit (BitVec.ofNat 32 e.1) 24 then d.setF 0x140020 27 16 (d.rf 0x140020 27 16 + 1) else d

/-- REPAIR (R429 to R432): the census, each region row's pass-through, the grade and the geometry table; phase LINKS follows.
[DESIGN CHOICE, log 92] -/
def Die.repair (d : Die) : Die :=
  if d.phase ≠ 5 then d
  else
    let fuse := d.fuses.defects
    let test := d.found.filter (fun f => f.kind ≤ 2)
    let all := fuse ++ test
    let units := badUnits all
    let badCore := (units.filter (fun u => u.1 = 0)).map (fun u => 64 * u.2.1 + u.2.2.1)
    let badCol := (units.filter (fun u => u.1 = 1)).map (fun u => (64 * u.2.1 + u.2.2.1, u.2.2.2))
    let d := { d with grid := { d.grid with badCore := badCore, badCol := badCol } }
    let fix (rr : Nat) : Option (Nat × Bool) :=
      if d.fuses.absent.contains (rr / 4) then none else repairRow (bit d.boot.opts 4) badCore badCol (rr / 4) (rr % 4)
    let served := (List.range 48).filter (fun r => (List.range 4).all (fun s => (fix (4 * r + s)).isSome))
    let d := d.regrade served (fun rr => (fix rr).elim 12 (·.1)) (fun rr => (fix rr).elim false (·.2))
    let byFuse (u : Nat × Nat × Nat × Nat) : Bool := !(findingsOf fuse u).isEmpty
    let small := d.smallPantry
    let entry (u : Nat × Nat × Nat × Nat) : Nat × Nat :=
      let t := !(findingsOf test u).isEmpty
      censusWords u.1 (b2n (byFuse u) + 2 * b2n t) (d.censusAct (!(small && decide (9 ≤ u.2.2.1 % 12))) u) u.2.1 u.2.2.1 u.2.2.2 (causeOf all test u) (byFuse u != t)
    let banks := (d.found.filter (fun f => f.kind = 3)).mergeSort (fun a b =>
      decide ((a.prow * 64 + a.pcol) * 64 + a.sub ≤ (b.prow * 64 + b.pcol) * 64 + b.sub))
    let entries := (units.filter byFuse).map entry ++ (units.filter (fun u => !byFuse u)).map entry ++
      banks.map (fun f => censusWords 3 2 0 f.prow f.pcol f.sub f.cause false)
    (entries.foldl Die.addCensus d).censusSum.enterBoot 7

/-! ### Links and firmware (R433 to R437) -/

/-- LINK_TRAINING (R314, R427, R433): the rates of BOOT_OPTIONS are written, every module of the grade that the census does not mark
bad starts training, and a bad one is FAILED. -/
def Die.linkTraining (d : Die) : Die :=
  if d.phase ≠ 7 ∨ (List.range 48).any (fun m => d.modState m ≠ 0) then d
  else
    let bad (m : Nat) : Bool := (d.found ++ d.fuses.defects).any (Finding.of 2 0 m 0)
    (List.range 48).foldl (fun d m =>
      let d := (d.setF (modOff m 0) 2 0 (fld d.boot.opts 10 8)).setF (modOff m 0) 6 4 (fld d.boot.opts 14 12)
      if d.smallPantry ∧ 9 ≤ m % 12 then d
      else if bad m then (d.setModState m 5).porchErr 0 2 m St.LINK_TRAIN
      else d.setModState m 2) d

/-- A core with the firmware in its instruction store, its banks on, and context 0 started (R428, R435). -/
def Die.firmCore (d : Die) (code : CoreCode) : Core :=
  let b := d.boot
  let banks : Tbl Bank := ((List.range 16).map (fun i => (bankKey 0 i, Bank.on))) ++ ((List.range 16).map (fun i => (bankKey 1 i, Bank.on))) ++
    ((List.range 8).map (fun i => (bankKey 2 i, Bank.on)))
  let banks := if d.smallPantry then banks.filter (fun e => !(decide (8 ≤ e.1) && decide (e.1 < 16))) else banks
  let store : Tbl (BitVec 64) := (b.words.zipIdx.filter (fun x => x.1 ≠ 0)).map (fun x => (b.core0 + x.2, x.1))
  let c := { Core.reset with banks := banks, istore := store }
  let c := ((c.setReg 0x908 (if d.smallPantry then 0xFF else 0xFFFF)).setReg 0x90C 0xFFFF).setReg 0x910 0xFF
  let c := (c.setReg 0x108 (BitVec.ofNat 32 (put b.limit 16 + b.core0))).setReg 0x2000 (BitVec.ofNat 32 (put 1 31 + b.core0))
  ((Wk.ctxLoaded ⟨d.env code, c, []⟩ 0).ctxStart 0).c

/-- CORE_FIRMWARE (R435): once no module trains, the firmware is broadcast to every core of a present row and started.
[DESIGN CHOICE, log 134] -/
def Die.coreFirmware (d : Die) : Die :=
  if d.phase ≠ 7 ∨ (List.range 48).any (fun m => d.modState m = 2) ∨ (List.range 48).all (fun m => d.modState m = 0) then d
  else
    let codes := ((List.range 2304).map coreOfIndex).filter (fun c => d.rowPresent (c / 64))
    let c := d.firmCore 0
    let d := { d with cores := codes.map (fun x => (x, c)), boot := { d.boot with fwAt := d.cyc, done := [] } }
    d.enterBoot 8

/-- Has a core passed: context 0 STOPPED and S0 as expected? (R436) [DESIGN CHOICE, log 97] -/
def Die.fwPassed (d : Die) (code : Nat) : Bool :=
  let c := d.core code
  (c.ctx 0).state == .stopped && c.sreg 0 0 == d.boot.expect

/-- The end of phase FIRMWARE (R437): every core reset, the regions put to sleep when IDLE is 1. -/
def Die.firmwareEnd (d : Die) : Die :=
  let d := { d with cores := [], spares := [] }
  let d := if bit d.boot.opts 5 then { d.setReg 0x100030 0 with therm := { d.therm with regions := [] } } else d
  (d.setNat 0x140008 (d.aon.toNat % 2 ^ 32)).enterBoot 9

/-- A core that failed its firmware check, in the census (R436, R446). -/
def Die.fwEntry (d : Die) (code act : Nat) : Die :=
  let pc := d.physCol code
  let d := { d with grid := { d.grid with badCore := d.grid.badCore ++ [64 * (code / 64) + pc] } }
  d.addCensus (censusWords 0 4 act (code / 64) pc 0 8 false)

/-- FIRMWARE_CHECK (R436, R437): at FWTIME the results are checked; each failure is taken over by its region row's free spare, on which
the firmware runs once more before the check is repeated for it; where no spare serves, the row becomes absent.
[DESIGN CHOICE, log 97] [DEDUCED, log 100] -/
def Die.firmwareCheck (d : Die) : Die :=
  if d.phase ≠ 8 ∨ d.cyc < d.boot.fwAt + d.boot.fwtime then d
  else if bit d.boot.opts 6 = false then d.firmwareEnd
  else
    let again := d.boot.done
    let tested := if again.isEmpty then d.cores.map (·.1) else again
    let failed := tested.filter (fun c => !d.fwPassed c)
    if failed.isEmpty then d.firmwareEnd
    else
      let alone (c : Nat) : Bool := d.freeOf (regionRow c) && (failed.filter (fun x => regionRow x == regionRow c)).length == 1
      let taken := if again.isEmpty then failed.filter alone else []
      let lost := failed.filter (fun c => !taken.contains c)
      let d := failed.foldl (fun d c => d.fwEntry c (if taken.contains c then 5 else 3)) d
      let d := taken.foldl Die.takeover d
      let served := (List.range 48).filter (fun r => d.rowPresent r && !lost.any (fun c => c / 64 == r))
      let brow (rr : Nat) : Nat := d.passOf rr
      let free (rr : Nat) : Bool := d.freeOf rr
      let d := (d.regrade served brow free).censusSum
      let spares := (taken.map (fun c => 64 * (c / 64) + 12 * (c % 64 / 12) + 11)).filter (fun c => d.rowPresent (c / 64))
      let fresh := d.firmCore 0
      let d := { d with cores := d.cores.filter (fun e => d.rowPresent (e.1 / 64)) }
      let d := spares.foldl (fun d c => d.setCore c fresh) d
      if spares.isEmpty then d.firmwareEnd
      else { d with boot := { d.boot with fwAt := d.cyc, done := spares } }

/-! ### The site description (R438 to R440) -/

/-- The registers of R438 in ascending address. [DESIGN CHOICE, log 101] -/
def siteRegs : List Nat :=
  [0x80000, 0x8000C] ++ (List.range 48).flatMap (fun m => [0x81000 + 32 * m, 0x81008 + 32 * m]) ++
    (List.range 32).map (fun i => 0x82000 + 4 * i) ++ (List.range 128).map (fun i => 0x82100 + 4 * i) ++
    (List.range 24).map (fun i => 0x82400 + 4 * i) ++ (List.range 64).flatMap (fun c => [0x88000 + 32 * c, 0x8800C + 32 * c]) ++
    [0xC001C] ++ (List.range 8).map (fun i => 0x100000 + 4 * i) ++ [0x140038, 0x14003C]

/-- Does a group hold a module whose role is not `role`? -/
def Die.groupNot (d : Die) (g role : Nat) : Bool := (groupModules d.reg g).any (fun m => d.role m ≠ role)

/-- Is the site description one that a commit refuses? (R439) -/
def Die.siteBad (d : Die) : Bool :=
  !d.addrSet ||
    (List.range 24).any (fun i => bit (d.reg (0x82400 + 4 * i)) 31 && d.groupNot (d.rf (0x82400 + 4 * i) 3 0) 2) ||
    (List.range 64).any (fun c => bit (d.reg (connOff c 0)) 31 && d.groupNot (d.rf (connOff c 0) 27 24) 3) ||
    (List.range 64).any (fun r =>
      let c := d.reg (0x82104 + 8 * r)
      bit c 31 && (if bit c 30 then !bit (d.reg (connOff (fld c 5 0) 0)) 31 else (groupModules d.reg (fld c 5 0 % 16)).isEmpty))

/-- A register of the site description as it reads: every field of an ABSENT module is 0, and THM_PLIM shows the job floor (R37, R341, R414). -/
def Die.siteWord (d : Die) (off : Nat) : Word :=
  if 0x81000 ≤ off ∧ off < 0x81600 ∧ d.modState ((off - 0x81000) / 32) = 0 then 0
  else if off = 0x10000C then (d.reg off &&& 0xF0F) ||| BitVec.ofNat 32 (put d.jfloor 4)
  else d.reg off

/-- Measurement 2 (R439). -/
def Die.siteDigest (d : Die) : List Byte := sha384 (siteRegs.flatMap (fun o => leBytes 4 (d.siteWord o).toNat))

/-- The edges whose modules all have role NONE: their Porch domains are off after a commit (R34, R313, R439).
[DEDUCED, log 133] -/
def Die.bareEdges (d : Die) : List Nat := (List.range 4).filter (fun e => (List.range 12).all (fun i => d.role (12 * e + i) = 0))

/-- SITE_COMMIT (R439, R440): a write of CEL_SITE_CTL. -/
def Die.siteCommit (d : Die) (v : Word) : Die × Status :=
  let d := d.setNat 0x140030 (fld v 15 0)
  if bit v 31 = false then (d, St.OK)
  else if ¬ (d.phase = 9 ∨ d.phase = 10) ∨ d.job.state ≠ 0 then (d.bootErr 0 St.CTX_STATE, St.CTX_STATE)
  else if d.siteBad then (d.bootErr 0 St.SITE_BAD, St.SITE_BAD)
  else
    let d := (List.range 48).foldl (fun d m => if d.role m = 0 ∧ 2 ≤ d.modState m then d.modOff' m else d) d
    let d := { d with porchOff := d.bareEdges }
    let d := if d.boot.firstCommit then d
      else { d with ts := d.ts + ((d.reg 0x14003C) ++ (d.reg 0x140038)), boot := { d.boot with firstCommit := true } }
    let d := d.setMeas 2 d.siteDigest
    let d := d.setNat 0x140034 (put 1 31 + fld v 15 0)
    ((d.setF 0x140000 31 31 1).setF 0x140000 3 0 10, St.OK)

/-- A write of CEL_TS_ADJ_LO or _HI (R440). -/
def Die.tsAdj (d : Die) (hi : Bool) (v : Word) : Die × Status :=
  if d.boot.firstCommit then (d.bootErr 0 St.CTX_STATE, St.CTX_STATE) else ((d.setReg (if hi then 0x14003C else 0x140038) v).siteStale, St.OK)

end Sys2Proof.Machine
end

