-- ==== Sys2Proof/Syntax.lean ====
section
/-! DEFINITION. The commands of the die, one for each row of the command table, with their operands: who asks and where (a request, a
core, a module, a channel), and whatever the outside world brings with the event (what a link delivers, what a sensor reads, what a
reply says). -/

namespace Sys2Proof

/-- One command of the die. [DESIGN CHOICE, log 5] [DESIGN CHOICE, log 6] -/
inductive Instr where
  /-- REGISTER_WRITE (R16): A write to a register that has no row of its own, applying RW, W1C, W1S and WO semantics after the checks of its chapter. -/
  | registerWrite (q : Machine.Req) (v : Word)
  /-- RC_READ (R17): A read of an RC field returns its value and clears it, keeping any event of the same cycle for the next read. -/
  | rcRead (q : Machine.Req)
  /-- LOW_WORD_READ (R19): A read of the low word of a 64-bit pair latches the high word into a shadow for that requester. -/
  | lowWordRead (q : Machine.Req)
  /-- RESERVED_OPCODE (R173): A fetched word whose opcode is reserved is refused at decode with SEQ_OP. -/
  | reservedOpcode (c : CoreCode)
  /-- NOP (R180): The sequencer issues a no-operation. -/
  | nop (c : CoreCode)
  /-- END (R184): The running firing block ends, every active loop ends, and with STOP = 1 the context stops after the block. -/
  | endInstr (c : CoreCode)
  /-- SALU (R181): The sequencer computes a scalar function of two scalar registers into a scalar register. -/
  | salu (c : CoreCode)
  /-- SALI (R181): The sequencer computes a scalar function of a scalar register and a 32-bit immediate. -/
  | sali (c : CoreCode)
  /-- LOOP (R184): The sequencer sets a loop counter and runs or skips a body of BODY words. -/
  | loop (c : CoreCode)
  /-- LCTL (R180): The sequencer moves a value between a loop counter and a scalar register. -/
  | lctl (c : CoreCode)
  /-- BRC (R185): A conditional branch to a word offset is taken or not taken, ending any loop whose body it leaves. -/
  | brc (c : CoreCode)
  /-- PRED (R182): The sequencer sets or combines row and column predicate registers. -/
  | pred (c : CoreCode)
  /-- SHAPE (R195): The sequencer sets the SR, SC or SK shape mask from a scalar register. -/
  | shape (c : CoreCode)
  /-- SHP (R194): The sequencer reads a shape slot clamped to its planned maximum, or writes its extent. -/
  | shp (c : CoreCode)
  /-- SRD (R183): The sequencer writes a scalar register with a selected value such as row, column, timestamp or span number. -/
  | srd (c : CoreCode)
  /-- CTXSW (R192): The running block ends and the core switches to a target context that is READY or STOPPED. -/
  | ctxsw (c : CoreCode)
  /-- FIRING_BLOCK_FIRE (R188): With no block running, the lowest-numbered enabled entry whose guard holds fires and consumes its SEM terms. -/
  | firingBlockFire (c : CoreCode)
  /-- FB_TIMEOUT (R189): An entry's unheld-guard count reaches LIMIT and either fires TOTGT or faults the context with FB_TIMEOUT. -/
  | fbTimeout (c : CoreCode) (b : Fin 16)
  /-- CTX_LOADED (R191): A LOADED command takes an EMPTY context to READY. -/
  | ctxLoaded (c : CoreCode) (ctx : Fin 4)
  /-- CTX_START (R191): A START command takes a READY or STOPPED context to RUNNING, resetting shape masks, OVER flags and timeout counts. -/
  | ctxStart (c : CoreCode) (ctx : Fin 4)
  /-- CTX_STOP (R191): A STOP command makes a RUNNING context stop firing at the end of its running block. -/
  | ctxStop (c : CoreCode) (ctx : Fin 4)
  /-- CTX_CLEAR (R191): A CLEAR command takes a context to EMPTY, disabling its entries and handles and closing its windows. -/
  | ctxClear (c : CoreCode) (ctx : Fin 4)
  /-- CONTEXT_STOPPED (R191): A stopping context becomes STOPPED once no queue holds its work. -/
  | contextStopped (c : CoreCode) (ctx : Fin 4)
  /-- SEQ_SWITCH (R192): A GO write to CORE_SEQ_SWITCH requests a pre-empting switch to the target context at the running block's END. -/
  | seqSwitch (c : CoreCode) (t : Fin 4)
  /-- SWITCH_DRAINED (R192): When the old context has drained, the core rebinds semaphores, endpoints and shapers to the target and starts it. -/
  | switchDrained (c : CoreCode) (cycles : Nat)
  /-- UNIT_DRAIN (R199): A drain-mode disable makes the unit refuse new issue while its queued work completes. -/
  | unitDrain (c : CoreCode) (u : Fin 5)
  /-- UNIT_DRAINED (R199): A draining unit whose queue and pipeline are empty becomes DISABLED. -/
  | unitDrained (c : CoreCode) (u : Fin 5)
  /-- UNIT_FORCE (R200): A forced disable discards the unit's queued and unfinished work, records UNIT_FORCED and marks the span dirty. -/
  | unitForce (c : CoreCode) (u : Fin 5)
  /-- UNIT_REEN (R201): A re-enable makes a DISABLED unit accept issue again. -/
  | unitReen (c : CoreCode) (u : Fin 5)
  /-- MXM (R97): A matrix product instruction expands into 1 to 16 array operations on successive accumulator blocks. -/
  | mxm (c : CoreCode)
  /-- ARRAY_OPERATION (R109): The array accepts one operation whose block is free, ramp slot allowed and feeder data due, and writes its block at cycle 11. -/
  | arrayOperation (c : CoreCode)
  /-- RAMP_PERIOD_END (R114): At the end of each 8-cycle period the unit's ramp level rises or falls by one. -/
  | rampPeriodEnd (c : CoreCode) (u : Fin 2)
  /-- MXCFG (R89): The matrix configuration of operand types, MX flags, per-tensor scales and A stride is set. -/
  | mxcfg (c : CoreCode)
  /-- MXB (R94): Thirty-two bytes are read, decoded and loaded into a B slot, interlocked with the operations on that slot. -/
  | mxb (c : CoreCode)
  /-- MXSC (R93): Block-scale bytes are loaded into A, B, W or X scale sets, interlocked with the operations that use them. -/
  | mxsc (c : CoreCode)
  /-- MXLD (R102): An accumulator or YB block is loaded from memory and starts accumulation with the named kind. -/
  | mxld (c : CoreCode)
  /-- MXD (R103): An accumulator or YB block is drained to memory, raw or converted, optionally emptying it. -/
  | mxd (c : CoreCode)
  /-- MXEW (R105): An element-wise product of two 16 by 8 tiles is added to an accumulator block. -/
  | mxew (c : CoreCode)
  /-- MVX (R106): Sixteen x elements are loaded and decoded into an X slot. -/
  | mvx (c : CoreCode)
  /-- MVCFG (R89): The vector-path configuration of W and x types and per-tensor scales is set. -/
  | mvcfg (c : CoreCode)
  /-- MVM (R107): A matrix-vector product adds one group of 16 products to each of eight outputs, for 1 to 16 operations. -/
  | mvm (c : CoreCode)
  /-- VOP (R126): An element-wise vector function selected by FN is applied to a register tile under predicates and mask. -/
  | vop (c : CoreCode)
  /-- VLD (R134): A vector register is loaded from memory through the vector port, with optional strides and conversion. -/
  | vld (c : CoreCode)
  /-- VST (R134): A vector register is stored to memory through the vector port, with optional conversion and amax capture. -/
  | vst (c : CoreCode)
  /-- VRED (R129): A reduction across lanes, rows or the whole tile is computed by the fixed tree. -/
  | vred (c : CoreCode)
  /-- VMS (R130): A value moves between a scalar register and vector register elements. -/
  | vms (c : CoreCode)
  /-- VAMX (R137): An amax capture slot is read into a scalar register and optionally cleared. -/
  | vamx (c : CoreCode)
  /-- AMAX_WRITE (R142): A register write sets a capture slot, a negative value setting +0, and a same-cycle capture folds in after it. -/
  | amaxWrite (c : CoreCode) (n : Fin 7) (v : Word)
  /-- REMOTE_ACCESS (R157): An access from outside the core arrives at the DMA/stream port and is checked against the core's windows. -/
  | remoteAccess (c : CoreCode)
  /-- CE_WRITE_BACK (R163): The corrected codeword is written back in the first cycle the bank's write access is free. -/
  | ceWriteBack (c : CoreCode)
  /-- PATROL_READ (R166): At each patrol interval a memory reads one row of its powered banks, correcting and counting errors. -/
  | patrolRead (c : CoreCode) (m : Fin 3)
  /-- BANK_POWER_WRITE (R161): A write to CORE_MEM_PWR switches banks off or queues them to wake one at a time. -/
  | bankPowerWrite (c : CoreCode) (m : Fin 3) (v : Word)
  /-- BANK_WAKE_DONE (R161): A waking bank finishes its 160-cycle wake with zeroed rows and serves its waiting accesses. -/
  | bankWakeDone (c : CoreCode) (m : Fin 3) (b : Fin 16)
  /-- BANK_OFF_DONE (R160): A bank being switched off completes its accepted accesses and loses its contents. -/
  | bankOffDone (c : CoreCode) (m : Fin 3) (b : Fin 16)
  /-- HANDLE_WRITE (R254): A write to a handle register sets it and invalidates every descriptor slot of the context that names the handle. -/
  | handleWrite (c : CoreCode) (ctx : Fin 4) (h : Fin 16) (hi : Bool) (v : Word)
  /-- WINDOW_WRITE (R159): A write to a window's control, base or size opens, changes or closes the window, refusing one that exceeds its memory. -/
  | windowWrite (c : CoreCode) (k : Fin 8) (r : Fin 3) (v : Word)
  /-- SSEND (R217): A message of 1 to 512 flits is sent through a source endpoint and completes when its acknowledgements arrive. -/
  | ssend (c : CoreCode)
  /-- SRECV (R218): Flits are taken from a sink endpoint oldest first and written to a buffer or discarded. -/
  | srecv (c : CoreCode)
  /-- SSTAT (R218): The number of flits an endpoint holds is written to a scalar register. -/
  | sstat (c : CoreCode)
  /-- FLIT_ADMIT (R221): A waiting flit is admitted into the mesh when its shaper holds a token and the injection port is free. -/
  | flitAdmit (c : CoreCode)
  /-- ROUTER_HOP (R208): A flit enters a router, has its header checked and is queued at its output for the next grant. -/
  | routerHop (c : CoreCode) (p : Fin 7)
  /-- VC2_AGED_GRANT (R209): A Service flit that has waited 256 cycles is granted ahead of Stream traffic. -/
  | vc2AgedGrant (c : CoreCode) (o : Fin 7)
  /-- REDUCTION_COMBINE (R227): Once one flit from every child of a tree is present, the router adds them lane by lane and sends the sum to the parent. -/
  | reductionCombine (c : CoreCode) (tree : Fin 64)
  /-- FLIT_DELIVERY (R214): An arriving flit is written into its sink endpoint's ring or spill ring and counted towards guards and SSTAT. -/
  | flitDelivery (c : CoreCode)
  /-- JOIN_WAIT_EXPIRY (R230): An endpoint's oldest flit held JWAIT cycles raises JOIN_STARVED. -/
  | joinWaitExpiry (c : CoreCode) (ep : Fin 16)
  /-- ACK_RECEIVE (R219): A delivery acknowledgement reaches its source endpoint and counts towards the SSEND's LEAVES. -/
  | ackReceive (c : CoreCode)
  /-- STEER_FORWARD (R233): A steering unit holding a token and a data message forwards or discards the message by SEL. -/
  | steerForward (c : CoreCode) (u : Fin 2)
  /-- SHAPER_WRITE (R220): A write of a register holding a shaper's RATE and BURST refills its bucket to the new BURST. -/
  | shaperWrite (p : Machine.ShaperPlace) (v : Word)
  /-- CELLAR_PORT_FLIT (R549): A Service flit sent by the Cellar or die control enters the mesh at the router of logical (23, 23). -/
  | cellarPortFlit
  /-- DDEF (R252): A 256-byte descriptor image is read and validated into a descriptor slot. -/
  | ddef (c : CoreCode)
  /-- DGO (R260): A channel accepts a run of a descriptor with scalar adjustments and starts the transfer. -/
  | dgo (c : CoreCode)
  /-- DMA_REQUEST_ADMIT (R245): A DMA read request or write message is admitted when its channel's shaper can spend its flits. -/
  | dmaRequestAdmit (c : CoreCode) (ch : Fin 4)
  /-- DMA_READ_RESPONSE (R264): Read-response data returns and the agent writes its destination elements in iteration order. -/
  | dmaReadResponse (c : CoreCode)
  /-- DMA_WRITE_ACK (R242): A target's acknowledgement of a write message arrives at the requesting channel. -/
  | dmaWriteAck (c : CoreCode)
  /-- DGO_COMPLETE (R242): A DGO completes once every read has returned and every write has been served or acknowledged. -/
  | dgoComplete (c : CoreCode) (ch : Fin 4)
  /-- DESCRIPTOR_WORD0_WRITE (R252): A Service write of descriptor word 0 stores it and validates the slot's words 1 to 63. -/
  | descriptorWord0Write (c : CoreCode) (ctx : Fin 4) (slot : Fin 16) (v : Word)
  /-- DESCRIPTOR_WORD_WRITE (R254): A Service write of descriptor words 1 to 63 stores the word and clears the slot's VALID. -/
  | descriptorWordWrite (c : CoreCode) (ctx : Fin 4) (slot : Fin 16) (k : Fin 63) (v : Word)
  /-- RANGE_ENTRY_WRITE (R244): A write leaving a DMA range entry VALID checks it and clears VALID with DMA_RANGE when it is not allowed. -/
  | rangeEntryWrite (c : CoreCode) (ctx : Fin 4) (k : Fin 8) (r : Fin 4) (v : Word)
  /-- SSIG (R272): A signal adds N to a local or remote semaphore. -/
  | ssig (c : CoreCode)
  /-- SWAIT (R275): A wait on a local or remote semaphore is granted, times out or fails and ends with a status. -/
  | swait (c : CoreCode)
  /-- SEM_WAIT_TIMEOUT (R275): A wait whose timeout expires without a grant ends with SEM_TIMEOUT. -/
  | semWaitTimeout (c : CoreCode) (e : Machine.WaitPlace)
  /-- SINIT (R273): The issuing context's semaphore is set to VALUE and its SATF and ORPH cleared. -/
  | sinit (c : CoreCode)
  /-- WTAKE (R279): A claim of K tile indices is served from a local or remote work counter. -/
  | wtake (c : CoreCode)
  /-- WSET (R279): A work counter is set to a value and limit, enabled for the context and its ORPH cleared. -/
  | wset (c : CoreCode)
  /-- SBAR (R283): A core registers its arrival at a barrier channel. -/
  | sbar (c : CoreCode)
  /-- BARRIER_RELEASE (R283): When all arrivals are in, the channel signals every participant's bound semaphore and starts its next phase. -/
  | barrierRelease (ch : Fin 31)
  /-- SIG (R277): A remote signal message is delivered and applied to the named semaphore. -/
  | sig (c : CoreCode)
  /-- WAIT (R278): A remote wait message is tested at once and granted or placed in the remote-wait table. -/
  | wait (c : CoreCode)
  /-- WAIT_REPLY (R277): A reply to a remote wait reaches the requesting queue with its status. -/
  | waitReply (c : CoreCode)
  /-- TAKE (R280): A remote claim message is served by the work counter in key order. -/
  | take (c : CoreCode)
  /-- TAKE_REPLY (R277): A reply to a remote claim delivers the index handed out to the requester. -/
  | takeReply (c : CoreCode)
  /-- SEM_MAP_WRITE (R270): A write to a context's semaphore translation maps or unmaps an identifier, refusing a doubled mapping. -/
  | semMapWrite (c : CoreCode) (ctx : Fin 4) (id : Fin 64) (v : Word)
  /-- SEM_VAL_WRITE (R273): A Service write of SEM_VAL replaces the value and clears SATF and ORPH. -/
  | semValWrite (c : CoreCode) (p : Fin 48) (v : Word) (rdie : DieAddr)
  /-- BARRIER_CHANNEL_ENABLE (R287): A write of EN = 1 to a barrier channel clears ORPH and starts a phase. -/
  | barrierChannelEnable (ch : Fin 31) (v : Word)
  /-- GATE_CTL_WRITE (R305): A write to a fill gate's control attaches or enables it, and EN = 0 releases every held row. -/
  | gateCtlWrite (c : CoreCode) (g : Fin 2) (v : Word)
  /-- GATE_ROWS_RELEASE (R304): A fill gate holding ROWS complete rows releases the oldest ROWS. -/
  | gateRowsRelease (c : CoreCode) (g : Fin 2)
  /-- GATE_DEADLINE_RELEASE (R304): When the oldest held row's deadline passes, the gate releases every row it holds. -/
  | gateDeadlineRelease (c : CoreCode) (g : Fin 2)
  /-- MODULE_TRAINING (R314): A module trains from MAXRATE at x64 then x32 down to MINRATE and becomes ACTIVE or FAILED. -/
  | moduleTraining (m : Fin 48) (ok : Nat) (repTx : Fin 16) (repRx : Fin 16)
  /-- MODULE_EN_WRITE (R315): A write setting EN of a module starts its training, and EN = 0 powers it down. -/
  | moduleEnWrite (m : Fin 48) (v : Word)
  /-- RETRAIN (R322): A RETRAIN command starts a PHY retrain of the module. -/
  | retrain (m : Fin 48)
  /-- RETRAIN_COMPLETE (R322): A retrain ends and the module resumes, records LINK_CHANGED on a lower capacity, or fails with LINK_DOWN. -/
  | retrainComplete (m : Fin 48) (fit : Option Machine.Fit)
  /-- LINK_FLIT_SEND (R320): A data flit is sent on a module once the sender holds a credit for its VC. -/
  | linkFlitSend (m : Fin 48)
  /-- NULL_FLIT_SEND (R323): A null flit is sent to carry a pending barrier event when no data flit is ready. -/
  | nullFlitSend (m : Fin 48)
  /-- LINK_FLIT_RECEIVE (R319): A link flit arrives and is checked by CRC and codeword, then accepted, poisoned or discarded for replay. -/
  | linkFlitReceive (m : Fin 48) (raw : BitVec 768)
  /-- TRANSIT_ADMIT (R328): A forwarded Stream flit leaves the Landing when the module's transit shaper admits it. -/
  | transitAdmit (m : Fin 48)
  /-- REPLAY_REQUEST (R321): A received replay request makes the sender resend every outstanding flit from the oldest. -/
  | replayRequest (m : Fin 48)
  /-- REPLAY_TIMEOUT (R321): The oldest outstanding flit waits 256 flit times uncovered and the sender resends from the oldest. -/
  | replayTimeout (m : Fin 48)
  /-- DIE_ADDR_WRITE (R325): The host assigns the die address once, a second write being refused with ADDR_SET. -/
  | dieAddrWrite (v : Word)
  /-- HUB_RESPONSE (R331): A memory hub returns read data or a write acknowledgement with status for a request. -/
  | hubResponse (m : Fin 48)
  /-- HUB_TIMEOUT (R333): A hub request without a complete response within PORCH_HUB_TO completes with MEM_TIMEOUT. -/
  | hubTimeout (n : Nat)
  /-- CONNECTION_ENABLE (R334): A write of EN to a long-reach connection sets both sequences to 0, refusing windows above 16,384 flits. -/
  | connectionEnable (k : Fin 64) (v : Word)
  /-- TRANSPORT_PACKET_RECEIVE (R336): A long-reach packet is accepted in order, discarded as a duplicate or answered with a NAK for a gap. -/
  | transportPacketReceive (k : Fin 64)
  /-- TRANSPORT_ACK_TIMER (R336): A receiver acknowledges after 1 µs or 16 packets. -/
  | transportAckTimer (k : Fin 64)
  /-- TRANSPORT_RETRANSMIT_TIMEOUT (R336): The oldest unacknowledged packet reaches the retransmit timeout and every unacknowledged packet is resent. -/
  | transportRetransmitTimeout (k : Fin 64)
  /-- CORE_SPAN_ARRIVAL (R351): A job core whose span-done semaphore reaches THRESH while quiescent arrives on channel 31. -/
  | coreSpanArrival (c : CoreCode)
  /-- SPAN_QUIET_EXPIRY (R352): A core at its span-done threshold that stays non-quiescent for QLIM cycles records SPAN_QUIET. -/
  | spanQuietExpiry (c : CoreCode)
  /-- SPAN_WDOG_EXPIRY (R352): A span that outruns CTL_SPAN_WDOG records SPAN_WDOG and is marked dirty. -/
  | spanWdogExpiry
  /-- FENCE_ARRIVAL (R356): A die whose cores have arrived, span is clean and traffic is acknowledged arrives in the FENCE phase. -/
  | fenceArrival
  /-- COMMIT_RELEASE (R358): The FENCE release flips ACTIVE, advances the span, captures shadows and sends MARK. -/
  | commitRelease
  /-- GO_RELEASE (R358): The GO release signals every job core's span-go semaphore and sets PHASE to FENCE. -/
  | goRelease
  /-- ROLLBACK_ENTER (R362): An orphaned release in FENCE makes every job core discard its work and the die enter DRAIN. -/
  | rollbackEnter
  /-- DRAIN_RELEASE (R362): The DRAIN release makes the die take over spares, reload sections, apply shadows and restore entries. -/
  | drainRelease (lines : List (BitVec 512)) (bad : Bool)
  /-- RESTORE_RELEASE (R362): The RESTORE release increments TRIES and performs the GO release of a replay. -/
  | restoreRelease
  /-- JOB_STOP (R375): A broken condition or stop request stops the job on channel 31 and records the condition. -/
  | jobStop (m : Fin 48)
  /-- MARK_REPLY (R366): The log die's reply to MARK arrives, a LOG_BAD reply making a late report. -/
  | markReply (st : Nat)
  /-- HOLD_REPLY (R366): The log die's reply to HOLD arrives during DRAIN. -/
  | holdReply (st : Nat)
  /-- REWIND_REPLY (R366): The log die's reply to REWIND arrives during RESTORE. -/
  | rewindReply (st : Nat) (lines : List (BitVec 512)) (bad : Bool)
  /-- LOG_REPLY_TIMEOUT (R366): A log reply missing past TO records LOG_TIMEOUT or breaks condition 6. -/
  | logReplyTimeout (lop : Fin 3)
  /-- SPAN_STOP (R376): A STOP command through CTL_SPAN_CMD makes a GO-phase stop pending. -/
  | spanStop (q : Machine.Req)
  /-- SPAN_ROLL (R360): A ROLL command marks the running span dirty with SPAN_SWROLL. -/
  | spanRoll (q : Machine.Req)
  /-- SPAN_FAIL (R368): A FAIL command declares the named core failed and marks the span dirty. -/
  | spanFail (q : Machine.Req) (c : CoreCode)
  /-- SPAN_LATE (R361): A LATE command reports a fault after commit, recording GUAR_LATE and making a stop pending. -/
  | spanLate (q : Machine.Req)
  /-- THERMOSTAT_CONTROL_POINT (R387): Every 100 µs the Thermostat chooses a P-state and may start one step. -/
  | thermostatControlPoint
  /-- AVS_VOUT_ACK (R387): The regulator acknowledges a Vout write and the settle wait starts. -/
  | avsVoutAck (ok : Bool)
  /-- AVS_SETTLE_DONE (R387): The settle wait after a voltage change ends and the glide may start. -/
  | avsSettleDone
  /-- GLIDE_COMPLETE (R381): A 1,024-cycle frequency glide ends at the adjacent P-state. -/
  | glideComplete
  /-- REGION_CTL_WRITE (R390): A write to THM_REGION_CTL queues regions to wake or sleep one at a time. -/
  | regionCtlWrite (v : Word)
  /-- REGION_WAKE_COMPLETE (R390): A region finishes its wake with cores in reset, contexts EMPTY and banks off. -/
  | regionWakeComplete (r : Fin 16)
  /-- REGION_SLEEP_COMPLETE (R391): A region finishes going to sleep and loses its memories and core registers. -/
  | regionSleepComplete (r : Fin 16)
  /-- ENVELOPE_INTERVAL (R397): At each 64-cycle interval the die grants engine starts and releases ballast within the current budget. -/
  | envelopeInterval
  /-- POWER_STEP (R399): At each 1 ms step the die updates its swing level, PAVG, cap and duty. -/
  | powerStep
  /-- LEARN_BIN (R404): At the end of each phase bin the learning controller updates its region duty ceilings. -/
  | learnBin
  /-- SENSOR_SAMPLE (R406): Every 10 µs the Thermostat samples every sensor and applies the thermal throttle. -/
  | sensorSample (readings : List (BitVec 16))
  /-- THERMAL_TRIP (R407): A comparator crossing 115 °C drives THERMTRIP_N, discards all work and starts shutdown. -/
  | thermalTrip (sensor : Fin 36)
  /-- SHUTDOWN_COMPLETE (R407): The shutdown sequence ends with only the Cellar domain on. -/
  | shutdownComplete
  /-- REFCLK_LOSS (R383): No reference edge for 1 µs records CLK_LOSS and runs the shutdown sequence. -/
  | refclkLoss
  /-- AON_LOSS (R384): No always-on edge for 1 ms records AON_LOSS and switches AON ticks to the ring oscillator. -/
  | aonLoss
  /-- AON_RESTORE (R384): Always-on edges present for 1 ms return the AON count to them without a jump. -/
  | aonRestore
  /-- AGEING_PERIOD (R413): Every 10 s the ageing monitors adjust the margin M or lower PMAX_AGE. -/
  | ageingPeriod (slack : Nat)
  /-- CALIBRATION_READ (R412): Every 10 ms the die reads Iout and Vout and moves its estimate's gain. -/
  | calibrationRead (iout : Nat) (vout : Nat)
  /-- PORST_RELEASE (R417): Release of PORST_N starts phase ROM, loading fuses, testing SRAM and sampling straps. -/
  | porstRelease (f : Machine.Fuses) (sramOk : Bool) (fmode : Fin 4) (aonv : Bool)
  /-- PORST_ASSERT (R542): An assertion of PORST_N for 100 µs resets the whole die and drops PWR_EN. -/
  | porstAssert
  /-- REFERENCE_PRESENT (R417): The reference appears and phase ROM completes, or its absence by 10 ms halts the die. -/
  | referencePresent (present : Bool)
  /-- FLASH_IMAGE_READ (R421): The die discovers the flash, reads and authenticates a Cellar image copy. -/
  | flashImageRead (f : Machine.FlashDev)
  /-- POWER_GOOD_RISE (R539): The switched rails' power-good inputs assert and the mesh and Porch domains are switched on. -/
  | powerGoodRise
  /-- POWER_GOOD_FALL (R541): A power-good input falling for 1 µs while PWR_EN is high halts the die with PG_TIMEOUT. -/
  | powerGoodFall (rail : Fin 6)
  /-- SELF_TEST (R428): Phase SELFTEST wakes every region and bank and tests every unit at the chosen level. -/
  | selfTest (finds : List Machine.Finding) (fatal : Bool)
  /-- REPAIR (R431): The die builds the census, sets each region row's pass-through, chooses the grade and writes the geometry table. -/
  | repair
  /-- LINK_TRAINING (R433): Phase LINKS trains every module the grade has that the census does not mark bad. -/
  | linkTraining
  /-- CORE_FIRMWARE (R435): The core firmware is broadcast into every present core's instruction store and started. -/
  | coreFirmware
  /-- FIRMWARE_CHECK (R436): At FWTIME each core's firmware result is checked, failures are taken over and the geometry rewritten. -/
  | firmwareCheck
  /-- SITE_COMMIT (R439): A COMMIT write checks the site description and makes the die READY. -/
  | siteCommit (q : Machine.Req) (v : Word)
  /-- SITE_REGISTER_WRITE (R440): A write to a site-description register clears SITE, and a CEL_TS_ADJ write after the first commit is refused. -/
  | siteRegisterWrite (q : Machine.Req) (n : Nat) (v : Word)
  /-- LOAD_GO (R441): A GO write starts reading a staged job image through its window. -/
  | loadGo (q : Machine.Req) (v : Word)
  /-- LOAD_READ_DONE (R442): The image has been read and the plan check runs in order, refusing at the first failure. -/
  | loadReadDone (st : Status) (img : List Word)
  /-- DL_ACQUIRE (R453): An ACQUIRE grants, renews, queues or refuses the Doorlatch for the requesting port. -/
  | dlAcquire (q : Machine.Req) (wait : Bool) (wto : BitVec 8) (lease : BitVec 20)
  /-- DL_RENEW (R453): A RENEW by the holding port resets the lease. -/
  | dlRenew (q : Machine.Req) (lease : BitVec 20)
  /-- DL_RELEASE (R453): A RELEASE by the holder frees the Doorlatch and grants the oldest waiter. -/
  | dlRelease (q : Machine.Req)
  /-- DL_REINIT (R453): A REINIT of an orphaned Doorlatch clears ORPH and frees it. -/
  | dlReinit (q : Machine.Req)
  /-- LEASE_EXPIRY (R454): The Doorlatch lease reaches 0 and the Doorlatch is orphaned with its waiters and the span marked dirty. -/
  | leaseExpiry
  /-- WAITER_TIMEOUT (R455): A Doorlatch waiter whose WTO passes completes with SEM_TIMEOUT. -/
  | waiterTimeout
  /-- JOB_START (R459): A START command starts a LOADED or STOPPED job at the next GO release. -/
  | jobStart (q : Machine.Req) (lines : List (BitVec 512)) (bad : Bool)
  /-- JOB_PAUSE (R460): A PAUSE command makes the job hold at the span boundary after its next commit. -/
  | jobPause (q : Machine.Req)
  /-- JOB_RESUME (R460): A RESUME command clears a pending pause or resumes a paused job into GO. -/
  | jobResume (q : Machine.Req)
  /-- JOB_KILL (R461): A KILL command discards all job work, stops the span and enters HOLD or SCRUBBING. -/
  | jobKill (q : Machine.Req)
  /-- JOB_UNLOAD (R463): An UNLOAD command scrubs a LOADED or STOPPED job without hold. -/
  | jobUnload (q : Machine.Req)
  /-- JOB_SCRUB (R465): A SCRUB command ends the post-mortem hold and starts the scrub. -/
  | jobScrub (q : Machine.Req)
  /-- SCRUB_COMPLETE (R463): Every job core reaches its scrubbed state and the die returns to no job. -/
  | scrubComplete
  /-- SPDM_REQUEST (R471): A GO write to a port's CTL_SPDM_CTL makes the die handle the mailbox request and write the response. -/
  | spdmRequest (q : Machine.Req) (p : Fin 2) (v : Word)
  /-- GET_VERSION (R470): The responder returns VERSION 1.2 and resets the port's SPDM state. -/
  | getVersion (p : Fin 2)
  /-- GET_CAPABILITIES (R470): The responder returns its capabilities. -/
  | getCapabilities (p : Fin 2)
  /-- NEGOTIATE_ALGORITHMS (R470): The responder returns ALGORITHMS for P-384 and SHA-384 or an ERROR. -/
  | negotiateAlgorithms (p : Fin 2)
  /-- GET_DIGESTS (R470): The responder returns the digest of certificate slot 0. -/
  | getDigests (p : Fin 2)
  /-- GET_CERTIFICATE (R470): The responder returns part of the slot 0 certificate chain. -/
  | getCertificate (p : Fin 2)
  /-- CHALLENGE (R470): The responder returns CHALLENGE_AUTH signed by the alias key. -/
  | challenge (p : Fin 2)
  /-- GET_MEASUREMENTS (R470): The responder returns the requested measurements, signed when asked. -/
  | getMeasurements (p : Fin 2)
  /-- TELEMETRY_INDEX_WRITE (R505): A private bus write sets the telemetry word index. -/
  | telemetryIndexWrite (n : BitVec 16)
  /-- TELEMETRY_READ (R473): A bus read returns consecutive telemetry words from the index without clearing any field. -/
  | telemetryRead (n : BitVec 8)
  /-- EPO_ARM (R473): A private write of 0xE0 with 0xA5 arms the emergency power-off. -/
  | epoArm (data : Byte)
  /-- EPO_FIRE (R473): A fire write while armed runs the shutdown sequence with cause EPO. -/
  | epoFire (data : Byte)
  /-- EPO_ARM_EXPIRY (R473): An arm not followed by a fire within 32,768 AON ticks lapses. -/
  | epoArmExpiry
  /-- ENTDAA (R472): The die takes part in dynamic address assignment on the I3C bus. -/
  | entdaa (a : BitVec 7)
  /-- SETDASA (R472): The die takes a dynamic address from its static address. -/
  | setdasa (a : BitVec 7)
  /-- SETNEWDA (R472): The die changes its dynamic address. -/
  | setnewda (a : BitVec 7)
  /-- RSTDAA (R472): The die resets its dynamic address. -/
  | rstdaa
  /-- GETPID (R472): The die returns its provisional ID. -/
  | getpid
  /-- GETBCR (R472): The die returns its bus characteristics register. -/
  | getbcr
  /-- GETDCR (R472): The die returns its device characteristics register. -/
  | getdcr
  /-- GETSTATUS (R472): The die returns its I3C status. -/
  | getstatus
  /-- ANNEX_CTL_WRITE (R480): A write of CORE_ANNEX_CTL switches Annex mode on an eligible empty core, reducing semaphores to 14 bits. -/
  | annexCtlWrite (c : CoreCode) (v : Word)
  /-- FAULT_LOG_WRITE (R494): A queued fault entry is written into the fault log and its severity counter incremented. -/
  | faultLogWrite
  /-- CE_STORM (R499): A core's correctable errors reaching THR within one window raise CE_STORM. -/
  | ceStorm (c : CoreCode)
  /-- READ32 (R501): A Service request reads one 32-bit word. -/
  | read32 (q : Machine.Req)
  /-- WRITE32 (R501): A Service request writes one 32-bit word. -/
  | write32 (q : Machine.Req) (v : Word) (lines : List (BitVec 512)) (bad : Bool)
  /-- LINE_READ (R501): A Service request reads 1 to 8 consecutive lines. -/
  | lineRead (q : Machine.Req) (nl : Fin 8)
  /-- LINE_WRITE (R501): A Service request writes 1 to 8 lines with byte enables. -/
  | lineWrite (q : Machine.Req) (lines : List (List (BitVec 64))) (enables : List (BitVec 64))
  /-- LINE_WRITE_BITS (R501): A Service request writes 1 to 8 lines merged bit by bit under enable flits. -/
  | lineWriteBits (q : Machine.Req) (lines : List (List (BitVec 64))) (enables : List (List (BitVec 64)))
  /-- DBG_HALT (R506): A HALT command requests a halt of the core's running context. -/
  | dbgHalt (c : CoreCode)
  /-- DEBUG_HALT_EFFECT (R506): A pending halt takes effect at the first cycle with no block running. -/
  | debugHaltEffect (c : CoreCode)
  /-- DBG_STEP (R507): A STEP command releases one evaluation, whose block runs to END before the context halts again. -/
  | dbgStep (c : CoreCode)
  /-- DBG_RESUME (R507): A RESUME command clears the halt. -/
  | dbgResume (c : CoreCode)
  /-- HALTALL (R508): A HALTALL command requests a halt on every present core. -/
  | haltAll
  /-- RESUMEALL (R508): A RESUMEALL command requests a resume on every present core. -/
  | resumeAll
  /-- TAP_RESET (R542): TRST_N or the loss of PG_AON resets the TAP into IDCODE. -/
  | tapReset
  /-- EXTEST (R546): The boundary-scan cells drive the management outputs. -/
  | extest (bumps : List Bool) (cells : List Bool)
  /-- SAMPLE_PRELOAD (R545): The boundary-scan register samples or preloads the management bumps. -/
  | samplePreload (bumps : List Bool) (cells : List Bool)
  /-- IDCODE (R545): The TAP shifts out the IDCODE value 0x100A_7753. -/
  | idcode
  /-- BYPASS (R545): The TAP selects the one-bit bypass register. -/
  | bypass
  /-- POWER_GOOD_TIMEOUT (R539): A power-good input of the switched rails that has not asserted by the end of phase POWER halts the die with PG_TIMEOUT. -/
  | powerGoodTimeout
  /-- PEER_PHY_RETRAIN (R311): A PHY retrain that the peer starts over the sideband takes the module to RETRAINING. -/
  | peerPhyRetrain (m : Fin 48)
  /-- IDLE_FLIT_SEND (R318): In a flit time with no data or null flit ready, an active module sends an idle flit carrying LACK and credits. -/
  | idleFlitSend (m : Fin 48)
  /-- PG_AON_ASSERTION (R534): The assertion of PG_AON takes every management output from high impedance to its defined pre-reset state. -/
  | pgAonAssertion
deriving DecidableEq, Repr

end Sys2Proof
end

