-- ==== Sys2Proof/Decode.lean ====
section
/-! DEFINITION. Commands from table words. The command table gives no row any bits (its rows are events, register writes and
protocol operations), so no word spells a command. The instruction words of the cores are decoded by Machine/Sequencer.lean, the
messages of the protocols by the files that own them. -/

namespace Sys2Proof

/-- The command that a word of `nbits` bits spells: none, since no row has bits. [DESIGN CHOICE, log 1] -/
def decodeTableWord (_nbits _w : Nat) : Option Instr := none

end Sys2Proof
end

