-- ==== Sys2Proof/Machine/PlanCheck.lean ====
section
/-! DEFINITION. The plan check of a job image: container, geometry, links, mesh, keep points and span plan (R222, R226, R291, R339,
R349, R442, R524 to R529). -/

namespace Sys2Proof.Machine

/-! ### Check 1: the staged range (R441, R442, R514) -/

/-- The bytes of a stack window (R514). -/
def windowSize : Nat := 2 ^ 37

/-- Is a stack window listed: VALID of its PORCH_WIN? (R330, R438) -/
def Die.windowListed (d : Die) (w : Nat) : Bool := decide (w < 24) && bit (d.reg (0x82400 + 4 * w)) 31

/-- The staged image's range lies inside one listed window of this die. -/
def Die.stagedOk (d : Die) : Bool :=
  let a := (d.reg 0x180004).toNat * 2 ^ 32 + (d.reg 0x180000).toNat
  let n := (d.reg 0x180008).toNat
  let l := a % 2 ^ 48
  let o := l - 0x100000000000
  decide (n ≠ 0) && a / 2 ^ 48 == d.addr.toNat && decide (0x100000000000 ≤ l) && d.windowListed (o / windowSize) &&
    decide (o % windowSize + n ≤ windowSize)

/-! ### Check 2: the container (R524 to R529) -/

/-- The container header and directory (R524, R529). -/
def containerOk (img : List Word) (size : Nat) : Bool :=
  let n := nsect img
  let ss := sects img
  decide (16 ≤ img.length) && iw img 0 == 0x5A4A4231 && nfld (iw img 1) 15 0 == 1 && decide (3 ≤ n) && decide (n ≤ 11) && iw img 2 == size &&
    size % 64 == 0 && size == 4 * img.length && (List.range 13).all (fun i => iw img (3 + i) == 0) &&
    (List.range n).all (fun i => nfld (iw img (16 + 4 * i)) 31 16 == 0 && iw img (17 + 4 * i) % 4 == 0 && decide (64 + 16 * n ≤ iw img (17 + 4 * i)) &&
      iw img (18 + 4 * i) % 4 == 0 && iw img (19 + 4 * i) == 0 && decide (iw img (17 + 4 * i) + iw img (18 + 4 * i) ≤ size)) &&
    ss.all (fun s => decide (1 ≤ s.code) && decide (s.code ≤ 0xB)) && decide ((ss.map (·.code)).eraseDups.length = n) &&
    [1, 2, 0xB].all (fun c => ss.any (fun s => s.code == c)) &&
    (List.range n).all (fun i => (List.range i).all (fun j => match ss[i]?, ss[j]? with
      | some a, some b => decide (a.first + a.len ≤ b.first) || decide (b.first + b.len ≤ a.first)
      | _, _ => true))

/-- The header section: its length, and the fields that its table gives as 0 or, an unused half of DIES, as 0xFFFF (R524, R525).
[DEDUCED, log 136] -/
def headerOk (img : List Word) : Bool :=
  let h := hdrWords img
  let nd := (nth 0 h 2).toNat
  decide (152 ≤ h.length) && decide (1 ≤ nd) && decide (nd ≤ 65535) && h.length == 152 + (nd + 1) / 2 &&
    fld (nth 0 h 1) 29 16 == 0 && fld (nth 0 h 3) 31 8 == 0 && [4, 5, 6, 7].all (fun i => nth 0 h i == 0) &&
    (nd % 2 == 0 || fld (nth 0 h (152 + nd / 2)) 31 16 == 0xFFFF)

/-- The lengths of the PLAN records (R528). -/
def planLenOk : Rec → Bool
  | .plan 1 data => data.length == 2
  | .plan 2 data => data.length == 4
  | .plan 3 data => data.length == 3 + 2 * fld (nth 0 data 0) 31 16
  | .plan 4 data => data.length == 73
  | _ => true

/-- The first section of the container that breaks a rule; none where every section keeps them (R526, R527). -/
def sectionBad (img : List Word) : Option Nat :=
  [1, 2, 3, 4, 5, 6, 7, 8, 9, 0xA, 0xB].find? (fun c =>
    if c = 1 then !headerOk img
    else if c = 0xA then decide ((sectWords img 0xA).length % 8 ≠ 0)
    else match recsOf img c with
      | none => true
      | some rs => !rs.all (fun r => recAllowed c r && planLenOk r))

/-! ### What the image sets -/

/-- The records of a section. -/
def recs (img : List Word) (c : Nat) : List Rec := (recsOf img c).getD []

/-- The word that a section's records leave in a core-window offset of a core; none where they do not write it. -/
def coreSet (img : List Word) (c code off : Nat) : Option Word :=
  (recs img c).foldl (fun o r => match r with
    | .core _ lo data | .coreset lo _ _ _ _ data =>
      if lo ≤ off ∧ off < lo + 4 * data.length ∧ (recCores (useWords img) r).contains code then some (nth 0 data ((off - lo) / 4)) else o
    | _ => o) none

/-- The word that a section's records leave in a die-control register. -/
def dieSet (img : List Word) (c off : Nat) : Option Word :=
  (recs img c).foldl (fun o r => match r with
    | .die lo data => if lo ≤ off ∧ off < lo + 4 * data.length then some (nth 0 data ((off - lo) / 4)) else o
    | _ => o) none

/-- A core register of the block as the section leaves it, or its reset value (R308). -/
def setOr (img : List Word) (c code off : Nat) : Word := (coreSet img c code (0x80000 + off)).getD (if routerOff off then routerRegReset off else coreRegReset off)

/-- The job cores of an image. -/
def imgCores (img : List Word) : List Nat := ((List.range 2304).filter (fun k => bit (nth 0 (useWords img) (k / 32)) (k % 32))).map coreOfIndex

/-! ### Checks 3 to 5 -/

/-- The first section whose CORE or CORESET record reaches a core outside USE (R527). Section 0x0007, which may write router registers
alone, sets them at the positions of absent rows too (R29). [DESIGN CHOICE, log 77] -/
def Die.outsideUse (d : Die) (img : List Word) : Option Nat :=
  [2, 3, 4, 5, 6, 7, 8, 0xB].find? (fun c => (recs img c).any (fun r => match r with
    | .core code _ _ => !bit (nth 0 (useWords img) (coreIndex code / 32)) (coreIndex code % 32) && !(c == 7 && !d.rowPresent (code / 64))
    | _ => false))

/-- Is every core the header uses present with its N and its Pantry? (R442, R525) -/
def Die.geomOk (d : Die) (img : List Word) : Bool :=
  let h := hdrWords img
  (imgCores img).all (fun c => d.rowPresent (c / 64) && !(bit (nth 0 h (80 + coreIndex c / 32)) (coreIndex c % 32) && d.n4 c)) &&
    decide (fld (nth 0 h 3) 7 0 ≤ d.rf 0x10000 23 16)

/-- The floor clock within the frequency of min(PCEIL, PMAX_AGE) (R381, R442). -/
def Die.floorOk (d : Die) (img : List Word) : Bool :=
  decide (3 * floorOf img ≤ (6 + min (d.rf 0x10000C 11 8) (d.rf 0x100028 11 8)) * 200)

/-! ### Check 6: die links (R339) -/

/-- The flit rate of a trained module, in flits per µs (R318). [DEDUCED, log 64] -/
def Die.flitRate (d : Die) (m : Nat) : Nat := (statCapacity (d.reg (modOff m 1)) * 1000 + 384) / 768

/-- One MOD record against the as-trained table (R339, R528). -/
def Die.modOk (d : Die) (data : List Word) : Status :=
  let w0 := nth 0 data 0
  let m := fld w0 5 0
  let sp := fld (nth 0 data 1) 15 0
  let hr := fld (nth 0 data 1) 31 16
  let hb := fld (nth 0 data 2) 7 0
  let dl := fld (nth 0 data 2) 31 16
  let n := fld w0 31 16
  let flows := (List.range n).map (fun i => (nth 0 data (3 + 2 * i), (nth 0 data (4 + 2 * i)).toNat))
  let u0 := 1024 * hr + 4 * sp
  let u := u0 + 1024 * (flows.foldl (fun s f => s + fld f.1 15 0) 0)
  let a := flows.foldl (fun s f => s + fld f.1 23 16 + ceilDiv (fld f.1 15 0 * f.2) 1000) 0
  if d.modState m ≠ 3 ∨ d.role m ≠ fld w0 9 8 then St.LINK_ABSENT
  else if sp = 0 ∨ d.flitRate m < sp ∨ 1024 * sp < u ∨ 128 < a + hb + 1 then St.LINK_SHORT
  else if 1024 * sp ≤ u0 ∨ dl * sp < 24 * sp + 1000 * (70 + ceilDiv ((a + hb + 1) * sp * 1024) (1024 * sp - u0)) then St.LINK_SHORT
  else St.OK

/-- The first MOD record that fails. -/
def Die.linksOk (d : Die) (img : List Word) : Status :=
  (recs img 9).foldl (fun st r => match r with
    | .plan 3 data => if st = St.OK then d.modOk data else st
    | _ => st) St.OK

/-! ### Check 7: the mesh (R212, R214, R222, R226) -/

/-- A router output: router and port. -/
abbrev Outlet := Nat × Nat

/-- The outputs from a router to a goal's exit, in order (R204). -/
def routeOuts : Nat → Nat → Nat → Nat → List Outlet
  | 0, _, _, _ => []
  | n + 1, code, to_, exit_ =>
    let o := hop code to_ exit_
    match neighbour code o with
    | some (next, _) => if code = to_ then [(code, o)] else (code, o) :: routeOuts n next to_ exit_
    | none => [(code, o)]

/-- The figures of an OUT record (R528). -/
structure OutRec where
  at_ : Outlet
  r0 : Nat
  h0 : Nat
  d : Nat
deriving DecidableEq, Repr

/-- The OUT records of an image. -/
def outRecs (img : List Word) : List OutRec :=
  (recs img 7).filterMap (fun r => match r with
    | .plan 1 data =>
      let w := nth 0 data 0
      some ⟨(fld w 11 0, fld w 14 12), fld w 26 16, fld (nth 0 data 1) 7 0, fld (nth 0 data 1) 31 16⟩
    | _ => none)

/-- A FLOW record (R528). -/
structure FlowRec where
  src : Nat
  sep : Nat
  kind : Nat
  land : Nat
  ns : Bool
  dst : Nat
  dep : Nat
  tree : Nat
  far : Bool
  rate : Nat
  burst : Nat
  bound : Nat
deriving DecidableEq, Repr

/-- The FLOW records of an image. -/
def flowRecs (img : List Word) : List FlowRec :=
  (recs img 7).filterMap (fun r => match r with
    | .plan 2 data =>
      let w := nth 0 data 0
      let x := nth 0 data 1
      let y := nth 0 data 2
      some ⟨fld w 11 0, fld w 15 12, fld w 17 16, if bit w 18 then 6 else 1, bit w 19, fld x 11 0, fld x 15 12, fld x 21 16, bit x 22, fld y 10 0, fld y 23 16,
        (nth 0 data 3).toNat⟩
    | _ => none)

/-- Where a flow ends: its router and exit port (R204, R326). -/
def Die.flowGoal (d : Die) (f : FlowRec) : Nat × Nat := if f.far then (edgeRouter (f.dst % 64) (flowKey d.addr f.src), 5) else (f.dst, 0)

/-- The outputs that queue a flow's flits. -/
def Die.flowOuts (d : Die) (f : FlowRec) : List Outlet := let g := d.flowGoal f; routeOuts 96 f.src g.1 g.2

/-- P of R205 for a route's horizontal leg. -/
def passes (src to_ : Nat) : Nat :=
  let a := src % 64
  let b := to_ % 64
  if a = b then 0 else (if a / 12 ≤ b / 12 then b / 12 - a / 12 else a / 12 - b / 12) + 1

/-- The output described by exactly one OUT record (R528). -/
def findOut (outs : List OutRec) (o : Outlet) : Option OutRec :=
  match outs.filter (fun r => r.at_ == o) with
  | [r] => some r
  | _ => none

/-- The reduction children of a tree's entry at a router: how many codes come before the first 7 (R239). -/
def childCount (b : Word) : Nat := ((List.range 4).takeWhile (fun k => fld b (3 * k + 2) (3 * k) ≠ 7)).length

/-- The combining time at an output: of the reduction trees whose parent port it is, the longest (R222, R228).
[DEDUCED, log 74] -/
def combTime (img : List Word) (o : Outlet) : Nat :=
  (List.range 63).foldl (fun a t =>
    let e := setOr img 7 o.1 (0x5100 + 8 * t)
    if bit e 31 ∧ bit e 30 ∧ fld e 26 24 = o.2 then max a (childCount (setOr img 7 o.1 (0x5104 + 8 * t)) - 1) else a) 0

/-- A router output has one OUT record, and R222 holds there. [DEDUCED, log 74] -/
def outletOk (img : List Word) (outs : List OutRec) (flows : List (FlowRec × List Outlet)) (o : Outlet) : Bool :=
  match findOut outs o with
  | none => false
  | some r =>
    let through := flows.filter (fun f => f.2.contains o)
    let u := r.r0 + 4 + through.foldl (fun s f => s + f.1.rate) 0
    let a := through.foldl (fun s f =>
      let q := (f.2.takeWhile (fun x => x != o)).foldl (fun s x => s + ((findOut outs x).elim 0 (·.d) - 2)) 0
      s + f.1.burst + ceilDiv (f.1.rate * q) 1024) 0
    decide (u ≤ 1024) && decide (a + r.h0 + 1 ≤ 24) && decide (r.r0 + 4 < 1024) &&
      decide (2 + ceilDiv (1024 * (a + r.h0 + 1)) (1024 - r.r0 - 4) + combTime img o ≤ r.d)

/-- A flow's need within its bound, in cycles or in ns at the floor clock (R222, R339). [DEDUCED, log 74] -/
def Die.boundOk (d : Die) (img : List Word) (outs : List OutRec) (f : FlowRec × List Outlet) : Bool :=
  let need := 2 + f.2.foldl (fun s o => s + (findOut outs o).elim 0 (·.d)) 0 + 2 * passes f.1.src (d.flowGoal f.1).1 + f.1.land
  if f.1.ns then decide (1000 * need ≤ f.1.bound * floorOf img) else decide (need ≤ f.1.bound)

/-- The Hallway routes of the reach lists (R211, R528). -/
def reachPairs (img : List Word) : List (Nat × Nat) :=
  (recs img 7).flatMap (fun r => match r with
    | .plan 4 data => ((List.range 2304).filter (fun k => bit (nth 0 data (1 + k / 32)) (k % 32))).map (fun k => (fld (nth 0 data 0) 11 0, coreOfIndex k))
    | _ => [])

/-- C of a Hallway route at most 39, every output with its OUT record (R212). -/
def hallOk (outs : List OutRec) (p : Nat × Nat) : Bool :=
  let os := routeOuts 96 p.1 p.2 0
  os.all (fun o => (findOut outs o).isSome) && decide (os.foldl (fun s o => s + ((findOut outs o).elim 0 (·.h0) - 1)) 0 ≤ 39)

/-- May a flit that entered a router by one port leave it by another under R204? A flit from the local port may leave anywhere. -/
def turnOk (i o : Nat) : Bool :=
  match i with
  | 0 => true
  | 1 => o == 3 || o == 0 || o == 5
  | 3 => o == 1 || o == 0 || o == 5
  | _ => o != i

/-- The routers whose tree entries section 0x0007 sets. -/
def treeRouters (img : List Word) : List Nat :=
  (imgCores img ++ (recs img 7).filterMap (fun r => match r with
    | .core code _ _ => some code
    | _ => none)).eraseDups

/-- A tree's path goes on at the neighbour by a link port: the neighbour has a valid entry of the same kind that names the port of this
link, as the port the tree arrives on or as the parent port (R226, R239). -/
def treeGoesOn (img : List Word) (c t o : Nat) (red up : Bool) : Bool :=
  match neighbour c o with
  | none => o == 0 || o == 5
  | some (n, p) =>
    let a := setOr img 7 n (0x5100 + 8 * t)
    bit a 31 && bit a 30 == red &&
      (if up then
        let b := setOr img 7 n (0x5104 + 8 * t)
        (List.range (childCount b)).any (fun k => fld b (3 * k + 2) (3 * k) == p)
      else fld a 26 24 == p)

/-- Trees whose paths, followed from router to router, keep to R204, none of tree 63, and no reduction whose root or leaf
lies on an Annex core (R226, R236, R489). [DEDUCED, log 74] -/
def treesOk (img : List Word) : Bool :=
  (treeRouters img).all (fun c => (List.range 64).all (fun t =>
    let a := setOr img 7 c (0x5100 + 8 * t)
    !bit a 31 || (t != 63 &&
      (if bit a 30 then
        let b := setOr img 7 c (0x5104 + 8 * t)
        treeGoesOn img c t (fld a 26 24) true true &&
          !(bit (setOr img 2 c 0xA00) 31 && (fld a 26 24 == 0 || (List.range (childCount b)).any (fun k => fld b (3 * k + 2) (3 * k) == 0))) &&
          (List.range (childCount b)).all (fun k =>
            let p := fld b (3 * k + 2) (3 * k)
            turnOk p (fld a 26 24) && treeGoesOn img c t p true false)
      else (List.range 6).all (fun p => !(bit a (16 + p)) || (turnOk (fld a 26 24) p && treeGoesOn img c t p false false))))))

/-- The source endpoint and the destination that a flow needs are configured (R528). [DEDUCED, log 74] -/
def flowEnds (img : List Word) (f : FlowRec) : Bool :=
  let mode (c e : Nat) : Nat := fld (setOr img 6 c (0x4000 + 32 * e)) 31 30
  let onTree (c : Nat) : Bool := bit (setOr img 7 c (0x5100 + 8 * f.tree)) 31
  mode f.src f.sep == 1 && (f.kind == 0 || (onTree f.src && f.tree != 63)) &&
    (if f.far then decide (f.dst < 48) else mode f.dst f.dep == 2 && (f.kind == 0 || onTree f.dst))

/-- The rings of a core's sinks overlap nowhere and stay in the 64 slots (R214). -/
def ringsOk (img : List Word) (c : Nat) : Bool :=
  let sinks := (List.range 16).filter (fun e => fld (setOr img 6 c (0x4000 + 32 * e)) 31 30 = 2)
  let ring (e : Nat) : Nat × Nat := let r := setOr img 6 c (0x400C + 32 * e); (fld r 13 8, fld r 6 0)
  sinks.all (fun e => decide ((ring e).1 + (ring e).2 ≤ 64)) &&
    sinks.all (fun e => sinks.all (fun g => decide (g ≤ e) || decide ((ring e).1 + (ring e).2 ≤ (ring g).1) || decide ((ring g).1 + (ring g).2 ≤ (ring e).1)))

/-- The cores and modules that a range entry covers, each as whether it is a module and its number (R243, R245). -/
def Die.rangeTargets (d : Die) (c : Nat) (base : BitVec 64) (size : Nat) : List (Bool × Nat) :=
  let die : DieAddr := BitVec.ofNat 16 (fld base 63 48)
  let lo := fld base 47 0
  if size = 0 then []
  else if die ≠ d.addr then ((routeModule d.reg die (flowKey d.addr c)).map (fun m => (true, m.1))).toList
  else if lo < 2 ^ 32 then
    let first := lo / 2 ^ 20
    ((List.range (min 4096 ((lo + 64 * size - 1) / 2 ^ 20 + 1) - first)).map (fun i => first + i)).filter isCore |>.map (fun k => (false, k))
  else if lo < 0x100000000000 then []
  else
    let o := lo - 0x100000000000
    let ms := groupModules d.reg (d.rf (0x82400 + 4 * (o / windowSize)) 3 0)
    ((List.range (min size ms.length)).filterMap (fun i => ms[(o % windowSize / 64 + i) % ms.length]?)).map (fun m => (true, m))

/-- The flows that one channel's traffic makes with a target: there, and back for read responses (R245). [DEDUCED, log 74] -/
def Die.dmaFlow (d : Die) (c : Nat) (res : Word) (base : BitVec 64) (t : Bool × Nat) : List (FlowRec × List Outlet) :=
  let f : FlowRec := ⟨c, 0, 0, 6, false, t.2, 0, 0, t.1, resRate res, resBurst res, 0⟩
  let die : DieAddr := BitVec.ofNat 16 (fld base 63 48)
  let back : Nat := if t.1 then edgeRouter t.2 (flowKey die (if die = d.addr then t.2 else fld base 31 20)) else t.2
  [(f, d.flowOuts f), (f, routeOuts 96 back c 0)]

/-- The flows of every DMA channel: for each core and module that an entry of the range tables covers with the channel in its mask (R245). -/
def Die.dmaFlows (d : Die) (img : List Word) : List (FlowRec × List Outlet) :=
  (imgCores img).flatMap (fun c => (List.range 4).flatMap (fun ch =>
    let ts := (List.range 32).flatMap (fun e =>
      let at_ := 0x6400 + 0x100 * (e / 8) + 16 * (e % 8)
      let ctl := setOr img 8 c at_
      if bit ctl 31 ∧ bit ctl ch then
        let base := setOr img 8 c (at_ + 8) ++ setOr img 8 c (at_ + 4)
        (d.rangeTargets c base (setOr img 8 c (at_ + 12)).toNat).map (fun t => (t, base))
      else [])
    (ts.map (·.1)).eraseDups.flatMap (fun t => match ts.find? (fun x => x.1 == t) with
      | some x => d.dmaFlow c (setOr img 8 c (0x6010 + 8 * ch)) x.2 t
      | none => [])))

/-- Check 7: the section concerned where it fails. Every output that a flow or a reach pair crosses, or an OUT record describes, is checked
(R222, R528). -/
def Die.meshBad (d : Die) (img : List Word) : Option Nat :=
  let outs := outRecs img
  let flows := (flowRecs img).map (fun f => (f, d.flowOuts f))
  let all := flows ++ d.dmaFlows img
  let pairs := reachPairs img
  let used := (all.flatMap (·.2) ++ pairs.flatMap (fun p => routeOuts 96 p.1 p.2 0) ++ outs.map (·.at_)).eraseDups
  if (imgCores img).any (fun c => !ringsOk img c) then some 6
  else if pairs.all (hallOk outs) && flows.all (fun f => flowEnds img f.1) && used.all (outletOk img outs all) &&
      flows.all (d.boundOk img outs) && treesOk img then none
  else some 7

/-! ### Check 8: keep points (R291) -/

/-- Two ranges of one window with a byte in common. -/
def overlap (a b : Nat × Nat × Nat) : Bool := a.1 == b.1 && decide (a.2.1 < b.2.1 + b.2.2) && decide (b.2.1 < a.2.1 + a.2.2)

/-- The keep stores: window, offset and size. -/
def keepStores (img : List Word) : List (Nat × Nat × Nat) :=
  let ws := sectWords img 0xA
  (List.range (ws.length / 8)).map (fun i =>
    let w (j : Nat) : Nat := (nth 0 ws (8 * i + j)).toNat
    (w 1 % 32, w 2 + 2 ^ 32 * w 3, w 4 + 2 ^ 32 * w 5))

/-- The word of an Attic register after the span plan's records (R378). -/
def atticReg (img : List Word) (r i : Nat) : Word := (dieSet img 0xB (0xC0100 + 16 * r + 4 * i)).getD 0

/-- The ranges of the Attic: of a double-buffered region both halves, of the image copy the one (R345, R378). -/
def atticRanges (img : List Word) : List (Nat × Nat × Nat) :=
  (List.range 16).flatMap (fun r =>
    let c := atticReg img r 0
    let n := 64 * (atticReg img r 3).toNat
    if bit c 31 = false then []
    else (fld c 4 0, 64 * (atticReg img r 1).toNat, n) :: (if bit c 30 then [] else [(fld c 4 0, 64 * (atticReg img r 2).toNat, n)]))

/-- The halves of the Attic alone. -/
def atticHalves (img : List Word) : List (Nat × Nat × Nat) :=
  (List.range 16).flatMap (fun r =>
    let c := atticReg img r 0
    let n := 64 * (atticReg img r 3).toNat
    if bit c 31 = false ∨ bit c 30 then [] else [(fld c 4 0, 64 * (atticReg img r 1).toNat, n), (fld c 4 0, 64 * (atticReg img r 2).toNat, n)])

/-- No two of a list of ranges overlap. -/
def disjoint (l : List (Nat × Nat × Nat)) : Bool :=
  (List.range l.length).all (fun i => (List.range i).all (fun j => match l[i]?, l[j]? with
    | some a, some b => !overlap a b
    | _, _ => true))

/-- A range inside a listed window. -/
def Die.rangeListed (d : Die) (r : Nat × Nat × Nat) : Bool := d.windowListed r.1 && decide (r.2.1 + r.2.2 ≤ windowSize)

/-- Check 8 (R291). -/
def Die.keepOk (d : Die) (img : List Word) : Bool :=
  let ks := keepStores img
  ks.all d.rangeListed && disjoint ks && ks.all (fun k => (atticHalves img).all (fun a => !overlap k a))

/-! ### Check 9: the span plan (R349) -/

/-- The bytes of a core memory. -/
def memBytes (small : Bool) (m : Nat) : Nat := if m = 2 ∨ (m = 0 ∧ small) then 0x10000 else 0x20000

/-- Is every restore entry of a core inside its memory and its region's read view? (R348, R379) -/
def Die.restoresOk (d : Die) (img : List Word) (c : Nat) : Bool :=
  (List.range 8).all (fun e =>
    let ctl := setOr img 0xB c (0xE040 + 16 * e)
    let n := fld (setOr img 0xB c (0xE044 + 16 * e)) 17 6
    let off := (setOr img 0xB c (0xE048 + 16 * e)).toNat
    let r := fld ctl 27 24
    !bit ctl 31 || (decide (fld ctl 29 28 < 3) && decide (64 * (fld ctl 16 6 + n) ≤ memBytes d.smallPantry (fld ctl 29 28)) &&
      bit (atticReg img r 0) 31 && !bit (atticReg img r 0) 30 && decide (off + n ≤ (atticReg img r 3).toNat)))

/-- No half of a double-buffered region meets another half, an image copy or a keep store (R349). -/
def halvesApart (img : List Word) : Bool :=
  let hs := atticHalves img
  disjoint hs && hs.all (fun h => ((atticRanges img).filter (fun a => !hs.contains a) ++ keepStores img).all (fun a => !overlap h a))

/-- ATTIC_RANGE of R349. -/
def Die.atticOk (d : Die) (img : List Word) : Bool :=
  let rs := atticRanges img
  let copies := (List.range 16).filter (fun r => bit (atticReg img r 0) 31 && bit (atticReg img r 0) 30)
  rs.all d.rangeListed && halvesApart img && copies.any (fun r => decide (4 * img.length ≤ 64 * (atticReg img r 3).toNat)) &&
    (imgCores img).all (d.restoresOk img)

/-- The instruction word at a place in a core's program, when the image writes one of its halves. -/
def imgInstr (img : List Word) (c w : Nat) : Option (BitVec 64) :=
  match coreSet img 2 c (0xC0000 + 8 * w), coreSet img 2 c (0xC0004 + 8 * w) with
  | none, none => none
  | lo, hi => some ((hi.getD 0) ++ (lo.getD 0))

/-- Is a logical semaphore of a context the span-done semaphore of a job core's binding? (R349, R350) -/
def isDone (img : List Word) (c k id : Nat) : Bool :=
  let ctl := setOr img 0xB c 0xE000
  bit ctl 31 && fld ctl 29 28 == k && fld ctl 27 22 == id && (imgCores img).contains c

/-- Does a SEM term of a firing block or an SWAIT of a job core's contexts name a core's span-done semaphore of this die? (R349)
[DEDUCED, log 75] -/
def waitsOnDone (img : List Word) (c : Nat) : Bool :=
  (List.range 4).any (fun k =>
    let range := setOr img 2 c (0x108 + 0x20 * k)
    (List.range 16).any (fun b =>
      bit (setOr img 2 c (0x2000 + 0x200 * k + 32 * b)) 31 && [4, 8, 12].any (fun o =>
        let t := setOr img 2 c (0x2000 + 0x200 * k + 32 * b + o)
        fld t 31 29 == 1 && isDone img c k (fld t 27 22))) ||
      (List.range (fld range 27 16 + 1 - fld range 11 0)).any (fun i => match imgInstr img c (fld range 11 0 + i) with
        | some x => opc x == 0x11 && ((fld x 54 53 == 0 && isDone img c k (fld x 34 29)) ||
            (fld x 54 53 == 1 && isDone img (fld x 52 41) (fld x 36 35) (fld x 34 29)))
        | none => false))

/-- SPAN_PLAN of R349. [DEDUCED, log 75] -/
def spanPlanOk (img : List Word) : Bool :=
  let ctl := (dieSet img 0xB 0xC0000).getD 0x00030000
  decide (1 ≤ fld ctl 19 16) && (imgCores img).all (fun c => bit (setOr img 0xB c 0xE000) 31 && !waitsOnDone img c)

/-! ### The check (R442) -/

/-- CTL_LOAD_GEN at check 4 (R443). -/
def Die.noteGens (d : Die) : Die := d.setNat 0x180018 (put (d.rf 0x80008 15 0) 16 + d.rf 0x10004 15 0)

/-- The checks from order `from_` on: the status of the first that fails and its section. -/
def Die.planCheck (d : Die) (img : List Word) (from_ : Nat) : Status × Nat :=
  if from_ ≤ 1 ∧ d.stagedOk = false then (St.LOAD_RANGE, 0)
  else if from_ ≤ 2 ∧ containerOk img (d.reg 0x180008).toNat = false then (St.IMG_SECTION, 0)
  else match (if from_ ≤ 2 then sectionBad img else none) with
  | some c => (St.IMG_SECTION, c)
  | none =>
    if (diesOf img).contains d.addr = false then (St.PLAN_DIE, 1)
    else match d.outsideUse img with
    | some c => (St.PLAN_GEOM, c)
    | none =>
      if d.geomOk img = false then (St.PLAN_GEOM, 1)
      else if d.floorOk img = false then (St.PLAN_FLOOR, 1)
      else
        let l := d.linksOk img
        if l ≠ St.OK then (l, 9)
        else match d.meshBad img with
        | some c => (St.PLAN_MESH, c)
        | none =>
          if d.keepOk img = false then (St.KEEP_RANGE, 0xA)
          else if d.atticOk img = false then (St.ATTIC_RANGE, 0xB)
          else if spanPlanOk img = false then (St.SPAN_PLAN, 0xB)
          else (St.OK, 0)

/-- Does a check that ends with this status pass check 3, so that check 4 began? -/
def reachedFour (st : Status) : Bool := st != St.LOAD_RANGE && st != St.IMG_SECTION && st != St.PLAN_DIE

end Sys2Proof.Machine
end

