-- ==== Sys2Proof/Machine/Job.lean ====
section
/-! DEFINITION. Loading, starting, pausing, killing and scrubbing a job (R441 to R444, R457 to R465). -/

namespace Sys2Proof.Machine

/-! ### The load (R441 to R444) -/

/-- STATE of CTL_LOAD_STAT. -/
def Die.loadState (d : Die) : Nat := d.rf 0x180010 2 0

/-- A status recorded in CTL_LOAD_ERR with the section concerned (R447, R550). -/
def Die.loadErr (d : Die) (st : Status) (sect : Nat) : Die := d.recErr 0x180014 (sect % 256) 0 6 0 st

/-- A load refused: STATE REFUSED, the job not loaded (R441). -/
def Die.loadRefuse (d : Die) (st : Status) (sect : Nat) : Die := { (d.loadErr st sect).setNat 0x180010 6 with job := .none }

/-- LOAD_GO (R440, R441): GO starts a load in READY with the site committed and no job loaded.
[DESIGN CHOICE, log 77] [DEDUCED, log 78] -/
def Die.loadGo (d : Die) (v : Word) : Die × Status :=
  if bit v 31 = false then (d, St.OK)
  else if d.phase = 10 ∧ bit (d.reg 0x140034) 31 = false then (d.loadErr St.SITE_STALE 0, St.SITE_STALE)
  else if d.phase ≠ 10 ∨ ¬ (d.loadState = 0 ∨ d.loadState = 6) ∨ d.job.state ≠ 0 then (d.loadErr St.CTX_STATE 0, St.CTX_STATE)
  else (d.setNat 0x180010 1, St.OK)

/-- The regions that hold job cores. -/
def Die.jobRegions (d : Die) : List Nat := (List.range 16).filter (fun r => d.jobCores.any (fun c => regionOf c.toNat = r))

/-- The contexts of job cores that the image gives a program: those whose CORE_CTX_IRANGE section 0x0002 writes.
[DEDUCED, log 76] -/
def jobCtxs (img : List Word) (use : List Word) : List (Nat × Nat) :=
  (recs img 2).flatMap (fun r => match r with
    | .core _ lo data | .coreset lo _ _ _ _ data =>
      ((List.range 4).filter (fun k => lo ≤ 0x80108 + 0x20 * k ∧ 0x80108 + 0x20 * k < lo + 4 * data.length)).flatMap (fun k =>
        (recCores use r).map (fun c => (c, k)))
    | _ => [])

/-- A refusal in LOADING (R444): every core written is reset, and the regions that the load woke go to sleep.
[DESIGN CHOICE, log 77] -/
def Die.loadUndo (d : Die) (st : Status) (sect : Nat) : Die :=
  let d := { d with cores := d.cores.filter (fun e => !d.jobCore e.1) }
  let woke := d.job.woke
  let d := d.setReg 0x100030 (d.reg 0x100030 &&& ~~~(BitVec.ofNat 32 woke))
  d.serveRegions.loadRefuse st sect

/-- The image's digest, measurement 3 (R529). -/
def imageDigest (img : List Word) : List Byte := sha384 (img.flatMap (fun w => leBytes 4 w.toNat))

/-- The last step of LOADING, once every region of the job is on (R441, R444): the sections are written, and the job is LOADED.
[DESIGN CHOICE, log 77] [DESIGN CHOICE, log 134] -/
def Die.loadFinish (d : Die) : Die :=
  if d.loadState ≠ 4 ∨ d.jobRegions.any (fun r => d.regionOn r = false) then d
  else
    let (d, st, sect) := d.loadSects [2, 3, 4, 5, 6, 7, 8, 9, 0xB]
    if st ≠ St.OK then d.loadUndo st sect
    else
      let h := hdrWords d.job.image
      let d := (d.setF 0xC0000 31 31 (fld (nth 0 h 1) 31 31)).setReg 0xC0040 (nth 0 h 0)
      let d := (jobCtxs d.job.image d.job.use).foldl (fun d x => d.atCore (BitVec.ofNat 12 x.1) (fun w =>
        if (w.c.ctx x.2).state = .empty then w.modCtx x.2 (fun k => { k with state := .ready }) else w)) d
      let d := d.setMeas 3 (imageDigest d.job.image)
      { d.setNat 0x180010 5 with job := { d.job with state := 1 }, span := .reset }

/-- LOAD_READ_DONE (R441 to R443): the image has been read, or its read failed; the plan check runs, and an image that passes is
copied and written into the cores as soon as their regions are awake. [DESIGN CHOICE, log 77] -/
def Die.loadRead (d : Die) (st : Status) (img : List Word) : Die :=
  if d.loadState ≠ 1 then d
  else if st ≠ St.OK then d.loadRefuse (hubStatus st.toNat) 0
  else
    let r := d.planCheck img 1
    let d := if reachedFour r.1 then d.noteGens else d
    if r.1 ≠ St.OK then d.loadRefuse r.1 r.2
    else
      let h := hdrWords img
      let d := { d with job := { Job.none with image := img, use := useWords img, floor := floorOf img, pmh := bit (nth 0 h 1) 30 } }
      let need := bitsOf 16 (fun r => d.jobRegions.contains r)
      let woke := BitVec.ofNat 32 need &&& ~~~(d.reg 0x100030)
      let d := { d.setReg 0x100030 (d.reg 0x100030 ||| BitVec.ofNat 32 need) with job := { d.job with woke := woke.toNat } }
      ((d.setNat 0x180010 4).serveRegions).loadFinish

/-- A region has woken: a load that waits for it goes on. -/
def Die.regionWoken (d : Die) (r : Nat) : Die := (d.wakeDone r).loadFinish

/-! ### Starting (R459) -/

/-- A refused job command (R458, R550). -/
def Die.jobRefuse (d : Die) (port : Nat) : Die × Status := (d.portErr 0 port St.CTX_STATE, St.CTX_STATE)

/-- Steps 2 to 5 of START (R459): TRIES 0, every job context that R191 lets start starts, the shadows are captured, the learning controller begins at 16 (R404), and the die arrives
in the GO phase. -/
def Die.beginJob (d : Die) : Die :=
  let d := d.setF 0xC0000 15 12 0
  let d := (jobCtxs d.job.image d.job.use).foldl (fun d x => d.atCore (BitVec.ofNat 12 x.1) (fun w =>
    let s := (w.c.ctx x.2).state
    if (s = .ready ∨ s = .stopped) ∧ w.c.active = none then w.startCtx x.2 else w)) d
  let d := d.capture
  let d := { d with job := { d.job with state := 2, pausep := false }, span := { d.span with stop := none, rolling := false, failed := [] }
                    therm := { d.therm with duty := [], bin := 0, idle := [], busy := [] } }
  (d.enterPhase 2).arrive31

/-- The RESTORE step of a START from STOPPED, and the rest of the start (R459). [DESIGN CHOICE, log 79] -/
def Die.restartJob (d : Die) (lines : List (BitVec 512)) (bad : Bool) : Die × Status :=
  let e := d.restore lines bad false
  if e.span.stop.isSome then (({ d with span := { d.span with stop := none } }).portErr 0 0 St.GUAR_ATTIC, St.GUAR_ATTIC)
  else
    let n := (e.reg 0xC0030).toNat + 1
    ((((e.setNat 0xC0004 (n % 2 ^ 32)).setNat 0xC002C 0)).beginJob, St.OK)

/-- JOB_START (R459): from LOADED at once, after the plan check when the tables have changed; from STOPPED after checks 3 to 9 and, with a
log die, REWIND, whose reply ends the START (none: the outcome is not known yet). [DESIGN CHOICE, log 82] -/
def Die.jobStart (d : Die) (port : Nat) (req : Option Req) (lines : List (BitVec 512)) (bad : Bool) : Die × Option Status :=
  if d.job.state = 1 then
    let same := decide (d.rf 0x180018 31 16 = d.rf 0x80008 15 0) && decide (d.rf 0x180018 15 0 = d.rf 0x10004 15 0)
    let r := if same then (St.OK, 0) else d.planCheck d.job.image 3
    let d := if same = false ∧ reachedFour r.1 then d.noteGens else d
    if r.1 ≠ St.OK then (d.loadErr r.1 r.2, some r.1) else (d.beginJob, some St.OK)
  else if d.job.state = 4 ∧ d.span.restarting = none then
    let r := d.planCheck d.job.image 3
    let d := if reachedFour r.1 then d.noteGens else d
    if r.1 ≠ St.OK then (d.loadErr r.1 r.2, some r.1)
    else if d.rf 0xC001C 15 0 = 0xFFFF then let x := d.restartJob lines bad; (x.1, some x.2)
    else
      let d := d.sendLog 3 (((d.reg 0xC0030).toNat + 1) % 2 ^ 32)
      ({ d with span := { d.span with restarting := some (port, req) } }, none)
  else let x := d.jobRefuse port; (x.1, some x.2)

/-- A START that has waited for REWIND ends with a status; its request is answered. [DESIGN CHOICE, log 82] -/
def Die.endStart (d : Die) (st : Status) : Die :=
  match d.span.restarting with
  | some (_, r) =>
    { d with span := { d.span with restarting := none }
             resps := d.resps ++ (match r with
               | some q => [⟨q, st, []⟩]
               | none => []) }
  | none => d

/-- MARK_REPLY, HOLD_REPLY and REWIND_REPLY (R361, R366, R459): the log die's reply taken up by the span, or by a START that waits
for it. [DESIGN CHOICE, log 82] -/
def Die.logAnswer (d : Die) (lop s : Nat) (lines : List (BitVec 512)) (bad : Bool) : Die :=
  match d.span.restarting with
  | some (port, _) =>
    if lop ≠ 3 ∨ d.span.log.any (fun x => x.1 == 3) = false then d.logReply lop s
    else
      let d := { d with span := { d.span with log := d.span.log.filter (fun x => x.1 != 3) } }
      if logStatus s = St.OK then let x := d.restartJob lines bad; x.1.endStart x.2
      else (d.portErr 0 port St.GUAR_LOG).endStart St.GUAR_LOG
  | none => d.logReply lop s

/-- LOG_REPLY_TIMEOUT (R366, R459). [DESIGN CHOICE, log 82] -/
def Die.logLate (d : Die) (lop : Nat) : Die :=
  match d.span.restarting with
  | some (port, _) =>
    if lop = 3 ∧ d.span.log.any (fun x => x.1 == 3 && decide (x.2.2 ≤ d.ts.toNat)) then
      let d := { d with span := { d.span with log := d.span.log.filter (fun x => x.1 != 3) } }
      (d.portErr 0 port St.GUAR_LOG).endStart St.GUAR_LOG
    else d.logTimeout lop
  | none => d.logTimeout lop

/-! ### Pausing, killing and scrubbing (R460 to R465) -/

/-- JOB_PAUSE (R460). -/
def Die.jobPause (d : Die) (port : Nat) : Die × Status :=
  if d.job.state = 2 then ({ d with job := { d.job with pausep := true } }, St.OK) else d.jobRefuse port

/-- JOB_RESUME (R460): a pending pause is cleared, or a paused die arrives in GO. -/
def Die.jobResume (d : Die) (port : Nat) : Die × Status :=
  if d.job.state = 2 ∧ d.job.pausep then ({ d with job := { d.job with pausep := false } }, St.OK)
  else if d.job.state = 3 then (({ d with job := { d.job with state := 2, pausep := false } }).arrive31, St.OK)
  else d.jobRefuse port

/-- The scrub begins (R463, R464). -/
def Die.startScrub (d : Die) : Die := { d with job := { d.job with state := 6, scrubAt := d.cyc, scrubTs := d.ts.toNat, pausep := false } }

/-- The hold ends, if there is one (R465). -/
def Die.endHold (d : Die) : Die := if d.job.state = 5 then d.startScrub else d

/-- Every window of a core closed (R159, R461). -/
def Wk.closeWindows (w : Wk) : Wk := iter 8 (fun k w => w.setReg (0x1200 + 16 * k) (w.reg (0x1200 + 16 * k) &&& 0x7FFFFFFF)) w

/-- Is a load in progress? -/
def Die.loading (d : Die) : Bool := decide (1 ≤ d.loadState) && decide (d.loadState ≤ 4)

/-- JOB_KILL (R461, R465). [DEDUCED, log 83] -/
def Die.jobKill (d : Die) (port : Nat) : Die × Status :=
  if d.job.state = 6 ∨ (d.job.state = 0 ∧ d.loading = false) then d.jobRefuse port
  else if d.job.state = 5 then (d.startScrub, St.OK)
  else
    let d := d.jobCores.foldl (fun d c => d.atCore c (fun w => w.stopAll.closeWindows)) d
    let d := if d.spanPhase = 0 ∨ d.spanPhase = 5 then d
      else
        let d := d.sendOrphan
        let d := (d.setNat 0xC002C (put 1 31 + St.JOB_KILLED.toNat)).setNat 0xC0030 (((d.reg 0xC0004).toNat + 2 ^ 32 - 1) % 2 ^ 32)
        d.enterPhase 5
    let d := d.endStart St.JOB_KILLED
    let d := if d.loading then ((d.setNat 0x180010 6).setNat 0x180014 St.JOB_KILLED.toNat).setFlag 0x180014 31 else d
    let d := d.portErr 2 port St.JOB_KILLED
    (if d.job.pmh then { d with job := { d.job with state := 5 } } else d.startScrub, St.OK)

/-- JOB_UNLOAD (R159, R458, R463). -/
def Die.jobUnload (d : Die) (port : Nat) : Die × Status :=
  if d.job.state = 1 ∨ d.job.state = 4 then
    (((d.jobCores.foldl (fun d c => d.atCore c (fun w => w.closeWindows)) d).endStart St.CTX_STATE).startScrub, St.OK)
  else d.jobRefuse port

/-- JOB_SCRUB (R458, R465). -/
def Die.jobScrub (d : Die) (port : Nat) : Die × Status := if d.job.state = 5 then (d.startScrub, St.OK) else d.jobRefuse port

/-- A write of CTL_JOB_CMD (R458): one command bit at a time. -/
def Die.jobCmd (d : Die) (port : Nat) (req : Option Req) (v : Word) (lines : List (BitVec 512)) (bad : Bool) : Die × Option Status :=
  let some' (x : Die × Status) : Die × Option Status := (x.1, some x.2)
  match fld v 31 26 with
  | 0 => (d, some St.OK)
  | 0x20 => d.jobStart port req lines bad
  | 0x10 => some' (d.jobPause port)
  | 0x08 => some' (d.jobResume port)
  | 0x04 => some' (d.jobKill port)
  | 0x02 => some' (d.jobUnload port)
  | 0x01 => some' (d.jobScrub port)
  | _ => some' (d.jobRefuse port)

/-- A register of a core that a scrub keeps: an event counter, or an error or correction log (R463). -/
def scrubKeeps (off : Nat) : Bool :=
  coreRc off || [0x004, 0x008, 0x71C, 0x818, 0x930, 0x938, 0x944, 0x4240, 0x6050, 0x6054, 0xD200].contains off

/-- A core after a scrub. -/
def Core.scrubbed (c : Core) : Core := { Core.reset with regs := c.regs.filter (fun e => scrubKeeps e.1) }

/-- A router after a scrub: no shadow, tree entries and MESH_HW_SHAPE at their reset values. -/
def Router.scrubbed (r : Router) : Router :=
  { r with shadow := none, shaper := Router.reset.shaper, regs := r.regs.filter (fun e => e.1 != 0x5000 && !(decide (0x5100 ≤ e.1) && decide (e.1 < 0x5300))) }

/-- SCRUB_COMPLETE (R463): every core that the image names is scrubbed, and the die has no job. -/
def Die.scrubDone (d : Die) : Die :=
  if d.job.state ≠ 6 then d
  else
    let d := d.jobCores.foldl (fun d c => (d.setCore c.toNat (d.core c.toNat).scrubbed).modRouter c.toNat Router.scrubbed) d
    let d := (List.range 12).foldl (fun d w => d.setReg (0x2000C0 + 4 * w) 0) d
    let d := (d.setF 0x200100 3 3 0).setNat 0x1C0048 ((d.ts.toNat - d.job.scrubTs) % 2 ^ 32)
    let d := (d.setF 0xC0000 2 0 0).setNat 0x180010 0
    { d with job := .none, span := .reset }

/-- CTL_JOB_STAT as it reads (R476). -/
def Die.viewJob (d : Die) : Word := BitVec.ofNat 32 (put (b2n d.job.pausep) 9 + put (b2n d.job.pmh) 8 + d.job.state)

end Sys2Proof.Machine
end

