-- ==== Sys2Proof/Machine/Control.lean ====
section
/-! DEFINITION. The Doorlatch, and die-control registers as they read and as a write changes them (R15 to R17, R289, R341, R377, R414 to
R416, R445 to R447, R452 to R456, R476 to R478, R510, R511, R520 to R522, R550). -/

namespace Sys2Proof.Machine

/-! ### The Doorlatch (R452 to R456) -/

/-- A response appended (R500). -/
def Die.respond (d : Die) (q : Req) (st : Status) (data : List (BitVec 64)) : Die := { d with resps := d.resps ++ [⟨q, st, data⟩] }

/-- The guard of a write through a port (R452). -/
def Die.guard (d : Die) (port : Nat) : Status :=
  if d.latch.orph then St.ORPHANED else if d.latch.held && d.latch.port == port then St.OK else St.DL_NOT_HELD

/-- The Doorlatch granted (R453, R455). -/
def Die.grantLatch (d : Die) (port : Nat) (sdie : DieAddr) (lease : Nat) : Die :=
  { d with latch := { d.latch with held := true, port := port, sdie := sdie, lastp := port, left := lease, ts := d.ts } }

/-- WAITER_TIMEOUT (R455): the first waiter whose timeout has run out completes with SEM_TIMEOUT. [DEDUCED, log 103] -/
def Die.waiterTimeout (d : Die) : Die :=
  match d.latch.waiters.find? (fun w => w.timed && w.left == 0) with
  | none => d
  | some w => ({ d with latch := { d.latch with waiters := d.latch.waiters.erase w } }).respond w.req St.SEM_TIMEOUT []

/-- LEASE_EXPIRY (R454, R455, R465): LEFT has reached 0: after the wait timeouts the Doorlatch and the waiters that remain are orphaned,
the running span is dirty, and a hold ends. [DEDUCED, log 103] -/
def Die.leaseExpiry (d : Die) : Die :=
  if d.latch.held = false ∨ d.latch.left ≠ 0 then d
  else
    let d := iter 8 (fun _ d => d.waiterTimeout) d
    let l := d.latch
    let d := l.waiters.foldl (fun d w => d.respond w.req St.ORPHANED []) { d with latch := { l with held := false, orph := true, waiters := [], ts := d.ts } }
    let d := ((d.bump 0x1C0014 1).alert 6).dirty 5 l.port St.ORPHANED
    (d.portErr 1 l.port St.ORPHANED).endHold

/-- The Doorlatch as a request of this cycle finds it: timeouts and an expiry that are due have taken effect (R456).
[DEDUCED, log 103] -/
def Die.latchDue (d : Die) : Die := (iter 8 (fun _ d => d.waiterTimeout) d).leaseExpiry

/-- DL_ACQUIRE (R453, R455): none while the request waits. A LEASE of 0 is read as 1. [DEDUCED, log 103] -/
def Die.dlAcquire (d : Die) (q : Req) (wait : Bool) (wto lease : Nat) : Die × Option Status :=
  let d := d.latchDue
  let lease := max 1 lease
  let l := d.latch
  if l.orph then (d, some St.ORPHANED)
  else if l.held = false then (d.grantLatch q.port q.rdie lease, some St.OK)
  else if l.port = q.port then ({ d with latch := { l with left := lease, sdie := q.rdie } }, some St.OK)
  else if wait = false then (d, some St.DL_BUSY)
  else if 8 ≤ l.waiters.length then (d, some St.SEM_WTFULL)
  else ({ d with latch := { l with waiters := l.waiters ++ [⟨q.port, q.rdie, lease, 256 * wto, decide (wto ≠ 0), q⟩] } }, none)

/-- DL_RENEW (R453). -/
def Die.dlRenew (d : Die) (q : Req) (lease : Nat) : Die × Option Status :=
  let d := d.latchDue
  if d.latch.orph then (d, some St.ORPHANED)
  else if d.latch.held && d.latch.port == q.port then ({ d with latch := { d.latch with left := max 1 lease } }, some St.OK)
  else (d, some St.DL_NOT_HELD)

/-- DL_RELEASE (R453, R455, R465): freed, the oldest waiter granted, and a post-mortem hold ended. -/
def Die.dlRelease (d : Die) (q : Req) : Die × Option Status :=
  let d := d.latchDue
  if d.latch.orph then (d, some St.ORPHANED)
  else if d.latch.held && d.latch.port == q.port then
    let d := { d with latch := { d.latch with held := false, left := 0 } }
    let d := match d.latch.waiters with
      | [] => d
      | w :: ws => (({ d with latch := { d.latch with waiters := ws } }).grantLatch w.port w.sdie w.lease).respond w.req St.OK []
    (d.endHold, some St.OK)
  else (d, some St.DL_NOT_HELD)

/-- A refusal of CTX_STATE recorded in CTL_PORT_ERR (R550). -/
def Die.portRefuse (d : Die) (port : Nat) : Die × Option Status := (d.portErr 0 port St.CTX_STATE, some St.CTX_STATE)

/-- DL_REINIT (R453). -/
def Die.dlReinit (d : Die) (q : Req) : Die × Option Status :=
  let d := d.latchDue
  if d.latch.orph then ({ d with latch := { d.latch with orph := false, held := false } }, some St.OK) else d.portRefuse q.port

/-- A write of CTL_DL_CMD (R453). -/
def Die.dlCmd (d : Die) (q : Req) (v : Word) : Die × Option Status :=
  match fld v 31 29 with
  | 1 => d.dlAcquire q (bit v 28) (fld v 27 20) (fld v 19 0)
  | 2 => d.dlRenew q (fld v 19 0)
  | 3 => d.dlRelease q
  | 4 => d.dlReinit q
  | _ => d.portRefuse q.port

/-- One AON tick edge for the Doorlatch: the timeouts and the lease count down (R454, R455). -/
def Latch.tick (l : Latch) : Latch :=
  { l with left := if l.held then l.left - 1 else l.left, waiters := l.waiters.map (fun w => { w with left := w.left - 1 }) }

/-- Waiter entry `i` as it reads (R478). -/
def Latch.view (l : Latch) (i : Nat) : Nat :=
  match l.waiters[i]? with
  | some w => put 1 31 + put w.port 30 + put (if w.timed then ceilDiv w.left 256 else 0) 20 + w.sdie.toNat
  | none => 0

/-! ### Reads (R520 to R522) -/

/-- The block of die control at an offset: whether it lies in the mesh domain; none outside every block (R516, R520). -/
def dieBlock (off : Nat) : Option Bool :=
  let within (lo hi : Nat) : Bool := decide (lo ≤ off) && decide (off ≤ hi)
  if within 0 0x2F ∨ within 0x10000 0x1025F then some false
  else if within 0x40000 0x402FF ∨ within 0x80000 0x8000F ∨ within 0x81000 0x815FF ∨ within 0x82000 0x8207F ∨ within 0x82100 0x822FF ∨
      within 0x82400 0x8245F ∨ within 0x84000 0x86FFF ∨ within 0x88000 0x887FF ∨ within 0xC0000 0xC0043 ∨ within 0xC0100 0xC01FF then some true
  else if within 0x100000 0x100077 then some (!(within 0x100064 0x10006B || within 0x100070 0x100077))
  else if within 0x100080 0x1000BF ∨ within 0x100100 0x10014F ∨ within 0x100200 0x10028F then some true
  else if within 0x140000 0x14003F ∨ within 0x141000 0x142FFF then some false
  else if within 0x180000 0x18001B then some true
  else if within 0x1C0000 0x1C0053 ∨ within 0x200000 0x200103 ∨ within 0x200200 0x20021F ∨ within 0x201000 0x204FFF then some false
  else if within 0x240000 0x24003B then some (off < 0x240004)
  else if within 0x240100 0x240103 ∨ within 0x250000 0x25FFFF then some true
  else if within 0x241000 0x2413FF then some false
  else none

/-- A port's SPDM state. -/
def Die.spdmOf (d : Die) (p : Nat) : Spdm := tget .reset d.spdm p

/-- A port's SPDM state changed. -/
def Die.modSpdm (d : Die) (p : Nat) (f : Spdm → Spdm) : Die := { d with spdm := tmod .reset d.spdm p f }

/-- The core at a physical position, where its region is on: a logical core's state, or the core at the pass-through (R510). -/
def Die.physCore (d : Die) (row pcol : Nat) : Option (CoreCode × Core) :=
  let s := pcol / 13
  let p := pcol % 13
  let rr := 4 * row + s
  let b := d.passOf rr
  let code := 64 * row + 12 * s + (if p < b then p else p - 1)
  if 48 ≤ row ∨ 52 ≤ pcol ∨ d.meshOn = false ∨ d.regionOn (regionOf (64 * row + 12 * s)) = false then none
  else if p = b then some (BitVec.ofNat 12 (64 * row + 12 * s + min p 11), tget .reset d.spares rr)
  else some (BitVec.ofNat 12 code, d.core code)

/-- A word of the physical-core debug window (R510); none where the region is off. -/
def Die.viewPhys (d : Die) (x : Nat) : Option Word :=
  match d.physCore (d.rf 0x240100 17 12) (d.rf 0x240100 11 6) with
  | some (code, c) => some (if routerOff x then d.viewRouter code.toNat x else Wk.viewReg ⟨d.env code, c, []⟩ x)
  | none => none

/-- A die-control register as it reads, at its offset from 0x0001_0000_0000. -/
def Die.viewDie (d : Die) (off : Nat) : Word :=
  let n (x : Nat) : Word := BitVec.ofNat 32 x
  if off = 0x0 then 0x2C510A71
  else if off = 0x4 then n (d.fuses.serial.toNat % 2 ^ 32)
  else if off = 0x8 then n (d.fuses.serial.toNat / 2 ^ 32)
  else if off = 0xC then 0x101
  else if off = 0x10 then n (d.ts.toNat % 2 ^ 32)
  else if off = 0x14 then n (d.ts.toNat / 2 ^ 32)
  else if 0x40100 ≤ off ∧ off < 0x402F0 ∧ off % 16 = 12 then
    let ch := (off - 0x40100) / 16
    (d.reg off &&& 0x8000FFFF) ||| n (put (b2n (d.bar ch).up) 30 + put (d.barArrived ch % 4096) 16)
  else if off = 0xC0020 ∨ off = 0x18000C ∨ off = 0x1C0000 ∨ off = 0x1C0040 ∨ off = 0x240000 then 0
  else if off = 0xC0024 then d.viewSpanStat
  else if off = 0x100034 then d.viewRegions
  else if off = 0x100068 then d.viewClk
  else if off = 0x100070 then n (d.aon.toNat % 2 ^ 32)
  else if off = 0x100074 then n (d.aon.toNat / 2 ^ 32)
  else if 0x100080 ≤ off ∧ off < 0x1000C0 ∧ off % 4 = 0 then n (put (6 + (off - 0x100080) / 4) 16 + nth 0 d.fuses.vbase ((off - 0x100080) / 4) % 65536)
  else if off = 0x140030 then d.reg off &&& 0xFFFF
  else if off = 0x1C0004 then
    n (put (b2n d.latch.held) 31 + put (b2n d.latch.orph) 30 + put d.latch.port 29 + put d.latch.lastp 28 + put d.latch.waiters.length 24 + d.latch.sdie.toNat)
  else if off = 0x1C0008 then n d.latch.left
  else if off = 0x1C000C then n (d.latch.ts.toNat % 2 ^ 32)
  else if off = 0x1C0010 then n (d.latch.ts.toNat / 2 ^ 32)
  else if 0x1C0020 ≤ off ∧ off < 0x1C0040 then n (d.latch.view ((off - 0x1C0020) / 4))
  else if off = 0x1C0044 then d.viewJob
  else if off = 0x200204 ∨ off = 0x200214 then (d.reg off &&& 0x40001FFF) ||| n (put (b2n (d.spdmOf ((off - 0x200204) / 16)).busy) 31)
  else if 0x201000 ≤ off ∧ off < 0x205000 then
    let s := d.spdmOf ((off - 0x201000) / 0x2000)
    n (leNat (((if (off - 0x201000) % 0x2000 < 0x1000 then s.req else s.resp).drop (off % 0x1000)).take 4))
  else if 0x250000 ≤ off ∧ off < 0x260000 then (d.viewPhys (off - 0x250000)).getD 0
  else d.siteWord off

/-- A read of a die-control register: its view, an RC field then cleared but for the events of the same cycle (R16, R17). -/
def Die.readDie (d : Die) (off : Nat) : Die × Word :=
  if dieRc off then
    let x := takeFresh d.fresh d.cyc off (d.reg off)
    ({ d.setReg off x.2.1 with fresh := x.2.2 }, x.1)
  else (d, d.viewDie off)

/-! ### Writes -/

/-- A refused write of die control, recorded where R550 says. -/
def Die.refuseDie (d : Die) (port off : Nat) (st : Status) : Die × Option Status :=
  let d :=
    if 0x81000 ≤ off ∧ off < 0x81600 then d.porchErr 0 2 ((off - 0x81000) / 32) st
    else if 0x84000 ≤ off ∧ off < 0x87000 then d.porchErr 0 2 ((off - 0x84000) / 256) st
    else if 0x88000 ≤ off ∧ off < 0x88800 then d.porchErr 0 3 ((off - 0x88000) / 32) st
    else if 0x80000 ≤ off ∧ off < 0x90000 then d.porchErr 0 6 0 st
    else if 0x100000 ≤ off ∧ off < 0x140000 then d.thmErr 0 st
    else if 0x140000 ≤ off ∧ off < 0x180000 then d.bootErr 0 st
    else if 0x180000 ≤ off ∧ off < 0x1C0000 then d.loadErr st 0
    else d.portErr 0 port st
  (d, some st)

/-- A die-control register written and the site description stale (R440). [DESIGN CHOICE, log 101] [DEDUCED, log 132] -/
def Die.siteWrite (d : Die) (off : Nat) (v : Word) : Die × Option Status := ((d.storePlain off v).siteStale, some St.OK)

/-- Bits of W1C fields cleared (R16), but for those that events of the same cycle have set (R17). [DESIGN CHOICE, log 119] -/
def Die.w1c (d : Die) (off : Nat) (v mask : Word) : Die × Option Status :=
  (d.setReg off (d.reg off &&& ~~~(v &&& mask &&& ~~~freshOf d.fresh d.cyc off)), some St.OK)

/-- Is a register one of those that R341 guards while a context runs: a module's CTL or XIT, a group, a routing entry, a window binding, a
far-stream entry, or a connection's CTL or TMR? -/
def porchGuarded (off : Nat) : Bool :=
  if off < 0x82000 then decide (0x81000 ≤ off) && (off % 32 == 0 || off % 32 == 8)
  else if off < 0x88000 then true
  else off % 32 == 0 || off % 32 == 12

/-- A write of a Porch register (R325, R334, R341). -/
def Die.writePorch (d : Die) (q : Req) (off : Nat) (v : Word) : Die × Option Status :=
  let stat (x : Die × Status) : Die × Option Status := (x.1, some x.2)
  if off = 0x80000 then
    let x := d.dieAddr v
    if x.2 = St.OK then stat (x.1.siteStale, x.2) else d.refuseDie q.port off x.2
  else if off = 0x80004 then d.w1c off v 0x80000000
  else if off = 0x8000C then d.siteWrite off v
  else if d.anyBusy ∧ porchGuarded off then d.refuseDie q.port off St.CTX_STATE
  else if 0x81000 ≤ off ∧ off < 0x81600 then
    let m := (off - 0x81000) / 32
    if d.modState m = 0 then (d, some St.OK)
    else if off % 32 = 0 then
      let d := (d.modEn m v).siteStale
      (if bit v 30 then d.retrain m else d, some St.OK)
    else if off % 32 = 8 then
      let d := (d.storePlain off v).siteStale
      (d.modMod m (fun x => { x with shaper := Shaper.fill (d.reg off) d.cyc }), some St.OK)
    else (d, some St.OK)
  else if 0x84000 ≤ off ∧ off < 0x87000 then (d.storePlain off v, some St.OK)
  else if 0x88000 ≤ off ∧ off < 0x88800 then
    if off % 32 = 0 then
      let x := d.connEnable ((off - 0x88000) / 32) v
      stat (if x.2 = St.OK then x.1.siteStale else x.1, x.2)
    else if off % 32 = 12 then d.siteWrite off v
    else (d, some St.OK)
  else if off = 0x80008 then (d, some St.OK)
  else d.siteWrite off v

/-- A write of CTL_SPAN_CMD (R360, R361, R368, R376). -/
def Die.spanCmd (d : Die) (port : Nat) (v : Word) : Die :=
  let d := if bit v 31 then d.spanStop else d
  let d := if bit v 30 then d.spanRoll port else d
  let d := if bit v 29 then d.spanFail port (fld v 11 0) else d
  if bit v 28 then d.spanLate else d

/-- A write of a span or Attic register (R377, R378). -/
def Die.writeSpan (d : Die) (q : Req) (off : Nat) (v : Word) : Die × Option Status :=
  if off = 0xC0020 then (d.spanCmd q.port v, some St.OK)
  else if d.spanPhase ≠ 0 ∧ d.spanPhase ≠ 5 then d.refuseDie q.port off St.CTX_STATE
  else if off = 0xC001C then d.siteWrite off v
  else (d.storePlain off v, some St.OK)

/-- Is a cap, window or swing value in its range? (R400, R401) -/
def thmOk (off : Nat) (v : Word) : Bool :=
  if off = 0x100004 then decide (150 ≤ fld v 24 16) && decide (fld v 24 16 ≤ 450) && decide (100 ≤ fld v 15 0) && decide (fld v 15 0 ≤ 10000)
  else if off = 0x100008 then fld v 7 0 == 0 || (decide (20 ≤ fld v 7 0) && decide (fld v 7 0 ≤ 200))
  else true

/-- The RW bits of a Thermostat register of the site description (R414). -/
def thmMask (off : Nat) : Word :=
  nth 0 [0xC00F0000, 0x01FFFFFF, 0xFF, 0xF0F, 0x3FF, 0xFFFFF, 0xFF, 0xFF0F] ((off - 0x100000) / 4)

/-- A write of a Thermostat register (R390, R400, R401, R413, R414): a new CAP or SWING starts the swing bound afresh (R398), a margin above
60 mV is taken as 60. [DEDUCED, log 87] [DESIGN CHOICE, log 135] -/
def Die.writeThm (d : Die) (q : Req) (off : Nat) (v : Word) : Die × Option Status :=
  if off < 0x100020 then
    if thmOk off v = false then d.refuseDie q.port off St.THM_RANGE
    else
      let d := (d.setReg off (mergeMask (d.reg off) v (thmMask off))).siteStale
      (if off = 0x100004 ∨ off = 0x100008 then { d with therm := { d.therm with level := d.powerAt d.pstate } } else d, some St.OK)
  else if off = 0x100028 then
    if d.anyBusy then d.refuseDie q.port off St.CTX_STATE else (d.setF 0x100028 7 0 (min 60 (fld v 7 0)), some St.OK)
  else if off = 0x100030 then let x := d.regionCtl v; (x.1, some x.2)
  else if off = 0x100058 then d.w1c off v 0x3FF0000
  else if off = 0x100060 then d.w1c off v 0x80000000
  else (d, some St.OK)

/-- SPDM_REQUEST, first part (R471): a GO write takes the message from the request buffer. `run` handles what is answered at once. -/
def Die.spdmGo (d : Die) (q : Req) (p : Nat) (v : Word) : Die × Option Status :=
  if bit v 31 ∧ (d.spdmOf p).busy then d.refuseDie q.port 0x200200 St.CTX_STATE
  else
    let d := d.setNat (0x200200 + 16 * p) (fld v 12 0)
    (if bit v 31 then d.modSpdm p (fun s => { s with busy := true }) else d, some St.OK)

/-- A word written into a port's request buffer (R471). -/
def Die.spdmBuf (d : Die) (q : Req) (off : Nat) (v : Word) : Die × Option Status :=
  let p := (off - 0x201000) / 0x2000
  if (off - 0x201000) % 0x2000 ≥ 0x1000 then (d, some St.OK)
  else if (d.spdmOf p).busy then d.refuseDie q.port 0x200200 St.CTX_STATE
  else
    let o := off % 0x1000
    (d.modSpdm p (fun s =>
      let b := s.req ++ List.replicate (4096 - s.req.length) 0
      { s with req := b.take o ++ leBytes 4 v.toNat ++ b.drop (o + 4) }), some St.OK)

/-- The codes of the 2,304 logical positions. -/
def everyCode : List CoreCode := (List.range 2304).map (fun k => BitVec.ofNat 12 (coreOfIndex k))

/-- HALTALL (R508): every core of a present row receives HALT with cause die-wide.
[DESIGN CHOICE, log 115] [DESIGN CHOICE, log 134] -/
def Die.haltAll (d : Die) : Die := everyCode.foldl (fun d c => d.atCore c (fun w => w.dbgHalt 3)) d

/-- RESUMEALL (R508). [DESIGN CHOICE, log 115] -/
def Die.resumeAll (d : Die) : Die := everyCode.foldl (fun d c => d.atCore c Wk.dbgResume) d

/-- A write of a die-control register after the checks of R502; none where its response is deferred. `lines` and `bad` are what the die's
reads of the committed half return when the write is a START that restores (R459). -/
def Die.writeDie (d : Die) (q : Req) (off : Nat) (v : Word) (lines : List (BitVec 512)) (bad : Bool) : Die × Option Status :=
  let stat (x : Die × Status) : Die × Option Status := (x.1, some x.2)
  if off = 0x40000 ∨ (0x40100 ≤ off ∧ off < 0x40300) then
    if d.anyBusy ∨ 0x402F0 ≤ off then d.refuseDie q.port off St.CTX_STATE
    else if off ≠ 0x40000 ∧ off % 16 = 0 then (d.barEnable ((off - 0x40100) / 16) v, some St.OK)
    else (d.storePlain off v, some St.OK)
  else if 0x80000 ≤ off ∧ off < 0x90000 then d.writePorch q off v
  else if 0xC0000 ≤ off ∧ off < 0xD0000 then d.writeSpan q off v
  else if 0x100000 ≤ off ∧ off < 0x140000 then d.writeThm q off v
  else if off = 0x140004 then d.w1c off v 0x80000000
  else if off = 0x140030 then stat (d.siteCommit v)
  else if off = 0x140038 ∨ off = 0x14003C then stat (d.tsAdj (off == 0x14003C) v)
  else if off = 0x18000C then stat (d.loadGo v)
  else if off = 0x180014 then d.w1c off v 0x80000000
  else if off = 0x1C0000 then d.dlCmd q v
  else if off = 0x1C0040 then d.jobCmd q.port (some q) v lines bad
  else if off = 0x1C004C then d.w1c off v 0x80000000
  else if off = 0x1C0050 then d.w1c off v 0x6F
  else if off = 0x200200 ∨ off = 0x200210 then d.spdmGo q ((off - 0x200200) / 16) v
  else if off = 0x200204 ∨ off = 0x200214 then d.w1c off v 0x40000000
  else if 0x201000 ≤ off ∧ off < 0x205000 then d.spdmBuf q off v
  else if off = 0x240000 then
    if bit v 31 && bit v 30 then d.refuseDie q.port off St.CTX_STATE
    else if bit v 31 then (d.haltAll, some St.OK)
    else if bit v 30 then (d.resumeAll, some St.OK)
    else (d, some St.OK)
  else if 0x250000 ≤ off ∧ off < 0x260000 then d.refuseDie q.port off St.CTX_STATE
  else (d.storePlain off v, some St.OK)

end Sys2Proof.Machine
end

