-- ==== Sys2Proof/Machine/Service.lean ====
section
/-! DEFINITION. Service requests as the die serves them: the checks of R502 in order, single words, lines, and the response (R16 to R19,
R29, R392, R448 to R452, R465, R500 to R503, R513 to R520). -/

namespace Sys2Proof.Machine

/-! ### What an address names (R513 to R517) -/

/-- A place in the die-local address space: a memory byte, an instruction word, or a register of a core window; die control; a stack
window; or nothing. -/
inductive Place where
  | mem (code m off : Nat)
  | store (code off : Nat)
  | reg (code off : Nat)
  | die (off : Nat)
  | stack (w : Nat)
  | nothing (code : Option Nat)
deriving DecidableEq, Repr

/-- What a fabric address of this die names. -/
def Die.place (d : Die) (addr : BitVec 64) : Place :=
  let l := fld addr 47 0
  if l < 2 ^ 32 then
    let code := l / 2 ^ 20
    let o := l % 2 ^ 20
    match memOfWindow d.smallPantry o with
    | some (m, off) => .mem code m off
    | none =>
      if 0x80000 ≤ o ∧ o < 0xC0000 then .reg code (o - 0x80000)
      else if 0xC0000 ≤ o ∧ o < 0xC8000 then .store code (o - 0xC0000)
      else .nothing (some code)
  else if 0x100000000 ≤ l ∧ l < 0x101000000 then
    (match dieBlock (l - 0x100000000) with
    | some _ => .die (l - 0x100000000)
    | none => .nothing none)
  else if 0x100000000000 ≤ l ∧ l < 0x130000000000 then .stack ((l - 0x100000000000) / windowSize)
  else .nothing none

/-- The core code of a place in a core window. -/
def Place.code : Place → Option Nat
  | .mem c _ _ | .store c _ | .reg c _ => some c
  | .nothing c => c
  | _ => none

/-- Is the place one of the router's registers, which the mesh domain serves? (R239, R512, R519) -/
def Place.meshReg : Place → Bool
  | .reg _ off => routerOff off
  | _ => false

/-! ### The checks (R502) -/

/-- NO_CORE, REGION_OFF and SCRUBBING of a place, OK where none applies; `read` is a read through `port` (R29, R392, R465, R520).
[DESIGN CHOICE, log 91] -/
def Die.reach (d : Die) (p : Place) (read : Bool) (q : Req) : Status :=
  match p with
  | .die off => if dieBlock off = some true ∧ d.meshOn = false then St.REGION_OFF else St.OK
  | _ =>
    match p.code with
    | none => St.OK
    | some c =>
      if isCore c = false ∨ (p.meshReg = false ∧ d.rowPresent (c / 64) = false) then St.NO_CORE
      else if d.meshOn = false ∨ (p.meshReg = false ∧ d.regionOn (regionOf c) = false) then St.REGION_OFF
      else if d.jobCore c ∧ (d.job.state = 6 ∨ (d.job.state = 5 ∧ ¬ (read ∧ d.latch.held ∧ d.latch.port = q.port))) then St.SCRUBBING
      else St.OK

/-- Is a request one of a control port? (R448) -/
def Req.byPort (q : Req) : Bool :=
  match q.via with
  | .core _ => false
  | _ => true

/-- Is a write to this place guarded? CTL_DL_CMD is not, nor a port's writes to its own SPDM mailbox, which is
its two buffers, and its CTL_SPDM_CTL (R452, R471). -/
def Req.guarded (q : Req) (p : Place) : Bool :=
  match p with
  | .die off => !(off == 0x1C0000 || off == 0x200200 + 16 * q.port ||
      (decide (0x201000 + 0x2000 * q.port ≤ off) && decide (off < 0x203000 + 0x2000 * q.port)))
  | _ => true

/-- The guard of a write through a control port, OK where the write may go on (R452, R502). [DESIGN CHOICE, log 91] -/
def Die.mayWrite (d : Die) (q : Req) (p : Place) : Status :=
  if q.byPort && q.guarded p then d.guard q.port else St.OK

/-! ### The high-word shadow (R19) -/

/-- Is a register of the core block the low word of a 64-bit quantity: the seed, a last-signaller stamp, the address of a range entry, ADDR or
SADDR of a descriptor? (R19, R244, R247, R288, R301) [DESIGN CHOICE, log 14] -/
def coreLow (off : Nat) : Bool :=
  off == 0x620 || (decide (0xC400 ≤ off) && decide (off < 0xD000) && off % 64 == 28) ||
    (decide (0x6400 ≤ off) && decide (off < 0x6800) && off % 16 == 4) ||
    (decide (0x8000 ≤ off) && decide (off < 0xC000) && (off % 256 == 68 || off % 256 == 144 || off % 256 == 164 || off % 256 == 240))

/-- Is this the low word of a 64-bit quantity? (R19, R510) [DESIGN CHOICE, log 14] -/
def Place.lowWord : Place → Bool
  | .die off => off == 0x4 || off == 0x10 || off == 0x100048 || off == 0x100050 || off == 0x100070 || off == 0x140038 || off == 0x180000 || off == 0x1C000C ||
      (decide (0x100100 ≤ off) && decide (off < 0x100150) && off % 8 == 0) || (decide (0x241000 ≤ off) && decide (off < 0x241400) && off % 16 == 0) ||
      (decide (0x250000 ≤ off) && decide (off < 0x260000) && coreLow (off - 0x250000))
  | .reg _ off => coreLow off
  | _ => false

/-- A requester as a number (R19, R448). -/
def Req.who (q : Req) : Nat :=
  let v := match q.via with
    | .cellar => 0
    | .module m => 1 + m
    | .core c => 64 + c.toNat
  ((v * 2 + q.port % 2) * 65536 + q.rdie.toNat) * 4096 + q.src.toNat

/-- The shadow's key for the word at a local address. [DESIGN CHOICE, log 14] -/
def Req.shadowKey (q : Req) (loc : Nat) : Nat := q.who * 2 ^ 48 + loc

/-! ### Single words (R500, R501) -/

/-- A register of a core's window read: SHV of CORE_SPAN_STAT comes from the router (R379). -/
def Die.readCoreReg (d : Die) (code off : Nat) : Die × Word :=
  let cc : CoreCode := BitVec.ofNat 12 code
  if routerOff off then
    if routerRc off then
      let x := takeFresh (d.router code).fresh d.cyc off ((d.router code).reg off)
      (d.modRouter code (fun r => { r.setReg off x.2.1 with fresh := x.2.2 }), x.1)
    else (d, d.viewRouter code off)
  else
    let r := Wk.readReg ⟨d.env cc, d.core code, []⟩ off
    let v := if off = 0xE004 then r.2 ||| (if (d.router code).shadow.isSome then 0x10000000 else 0) else r.2
    (d.onCore cc (fun w => (w.readReg off).1), v)

/-- Bytes of a core memory read by Service: the bytes and what the read met; none while a bank wakes (R158, R160, R161).
[DESIGN CHOICE, log 33] -/
def Die.readBytes (d : Die) (code m off n : Nat) : Option (Die × List Byte × AccFlags) :=
  let cc : CoreCode := BitVec.ofNat 12 code
  let offs := (List.range n).map (fun i => off + i)
  let w : Wk := ⟨d.env cc, d.core code, []⟩
  if w.mustWait m offs then none
  else
    let r := w.readMem m portDma 0 offs
    some (d.onCore cc (fun _ => r.1), r.2.1, r.2.2)

/-- Bytes of a core memory written under bit masks by Service; none while a bank wakes. [DESIGN CHOICE, log 33] -/
def Die.writeBytes (d : Die) (code m : Nat) (ws : List (Nat × Byte × Byte)) : Option (Die × AccFlags) :=
  let cc : CoreCode := BitVec.ofNat 12 code
  let w : Wk := ⟨d.env cc, d.core code, []⟩
  if w.mustWait m (ws.map (·.1)) then none
  else
    let r := w.writeMem m portDma ws
    some (d.onCore cc (fun _ => r.1), r.2)

/-- What an access to a core's memory met, counted once and recorded at the core (R160). -/
def Die.noteAccess (d : Die) (code : Nat) (fl : AccFlags) : Die := d.onCore (BitVec.ofNat 12 code) (fun w => w.noteAcc fl)

/-- Does an open window let a core's request touch `n` bytes at a place? A stack window has no windows of a core before it (R157, R502). -/
def Die.windowOk (d : Die) (q : Req) (p : Place) (n : Nat) (read : Bool) : Bool :=
  match q.via, p with
  | .core c, .mem k m off => Wk.windowAllows ⟨d.env (BitVec.ofNat 12 k), d.core k, []⟩ (!read) q.rdie c.toNat m off n
  | .core _, .stack _ => true
  | .core _, _ => false
  | _, _ => true

/-- The first status of R502 that a word access meets before the rules of the register. -/
def Die.wordCheck (d : Die) (q : Req) (read : Bool) : Status :=
  let p := d.place q.addr
  match p with
  | .nothing _ | .stack _ => St.SVC_BAD
  | _ =>
    if fld q.addr 1 0 ≠ 0 then St.MISALIGNED
    else
      let r := d.reach p read q
      if r ≠ St.OK then r
      else if d.windowOk q p 4 read = false then St.WIN_DENIED
      else if read then St.OK
      else d.mayWrite q p

/-- The word at a place read: none while a bank wakes. -/
def Die.wordAt (d : Die) (p : Place) : Option (Die × Word × Status) :=
  match p with
  | .mem c m off => (d.readBytes c m off 4).map (fun r => (r.1.noteAccess c r.2.2, BitVec.ofNat 32 (leNat r.2.1), r.2.2.status))
  | .store c off =>
    let w := tget 0 (d.core c).istore (off / 8)
    some (d, (if off % 8 = 0 then w else w >>> 32).setWidth 32, St.OK)
  | .reg c off => let r := d.readCoreReg c off; some (r.1, r.2, St.OK)
  | .die off =>
    if 0x250000 ≤ off ∧ (d.viewPhys (off - 0x250000)).isNone then some (d, 0, St.REGION_OFF)
    else let r := d.readDie off; some (r.1, r.2, St.OK)
  | _ => some (d, 0, St.SVC_BAD)

/-- A word read after the checks (R19): the die, the word and the status; none while a bank of the word wakes. A low word latches its
high word for the requester, and the next read of that high word returns the latch. [DESIGN CHOICE, log 14] -/
def Die.readWord (d : Die) (q : Req) : Option (Die × Word × Status) :=
  let p := d.place q.addr
  let loc := fld q.addr 47 0
  let key := q.shadowKey loc
  match d.shadow.find? (fun e => e.1 == key) with
  | some e => some ({ d with shadow := d.shadow.filter (fun e => e.1 != key) }, e.2, St.OK)
  | none =>
    (d.wordAt p).map (fun r =>
      if p.lowWord then
        match d.wordAt (d.place (q.addr + 4)) with
        | some h =>
          let key := q.shadowKey (loc + 4)
          ({ r.1 with shadow := (r.1.shadow.filter (fun e => e.1 != key)) ++ [(key, h.2.1)] }, r.2.1, r.2.2)
        | none => r
      else r)

/-- A word written at a place after the checks; none where the response waits. -/
def Die.writeWord (d : Die) (q : Req) (p : Place) (v : Word) (lines : List (BitVec 512)) (bad : Bool) : Die × Option Status :=
  match p with
  | .mem c m off =>
    match d.writeBytes c m ((leBytes 4 v.toNat).mapIdx (fun i b => (off + i, b, 0xFF))) with
    | some r => (r.1.noteAccess c r.2, some r.2.status)
    | none => (d, none)
  | .store c off =>
    let cc : CoreCode := BitVec.ofNat 12 c
    let x := if off % 8 = 0 then d.atCoreS cc (fun w => w.writeInstr (off / 8) (v.setWidth 64) 0xFFFFFFFF)
      else d.atCoreS cc (fun w => w.writeInstr (off / 8) (v.setWidth 64 <<< 32) 0xFFFFFFFF00000000)
    (x.1, some x.2)
  | .reg c off =>
    if routerOff off then (d.writeRouter c off v, some St.OK)
    else let x := d.atCoreS (BitVec.ofNat 12 c) (fun w => w.writeReg off v q.rdie); (x.1, some x.2)
  | .die off => d.writeDie q off v lines bad
  | _ => (d, some St.SVC_BAD)

/-! ### Lines (R501, R518) -/

/-- The addresses of a line operation's lines. -/
def Req.lineAddrs (q : Req) (nl : Nat) : List (BitVec 64) := (List.range nl).map (fun i => q.addr + BitVec.ofNat 64 (64 * i))

/-- The first status of R502 that a line operation meets; a stack window's lines are carried when its binding is VALID (R516). -/
def Die.lineCheck (d : Die) (q : Req) (nl : Nat) (read : Bool) : Status :=
  let ps := (q.lineAddrs nl).map d.place
  let served (p : Place) : Bool := match p with
    | .mem _ _ _ | .store _ _ => true
    | .stack w => bit (d.reg (0x82400 + 4 * w)) 31
    | _ => false
  let sameWindow : Bool := match d.place q.addr with
    | .stack w => ps.all (fun p => p == .stack w)
    | p => ps.all (fun x => x.code == p.code)
  if !ps.all served ∨ !sameWindow then St.SVC_BAD
  else if fld q.addr 5 0 ≠ 0 then St.MISALIGNED
  else
    let r := d.reach (d.place q.addr) read q
    if r ≠ St.OK then r
    else if !ps.all (fun p => d.windowOk q p 64 read) then St.WIN_DENIED
    else if read then St.OK
    else d.mayWrite q (d.place q.addr)

/-- The eight words of a line at a place, and what the read met; none while a bank wakes. -/
def Die.lineAt (d : Die) (p : Place) : Option (Die × List (BitVec 64) × AccFlags) :=
  match p with
  | .mem c m off => (d.readBytes c m off 64).map (fun r => (r.1, bytesPay r.2.1, r.2.2))
  | .store c off => some (d, (List.range 8).map (fun i => tget 0 (d.core c).istore (off / 8 + i)), {})
  | _ => some (d, [], {})

/-- The flits of a request that travels on: the address flit with the PORT bit, then the flits after it (R500, R501). -/
def Req.flits (q : Req) (sop nl : Nat) (ext : List (BitVec 64)) (rest : List (List (BitVec 64))) (far : Bool) (dest : Nat) : List Flit :=
  Flit.mk' ⟨2, 5, rest.isEmpty, far, dest, 0, q.src.toNat, 0, 0, 0⟩
      ([svcWord0 sop (nl - 1) q.rdie 0 ||| BitVec.ofNat 64 (put (q.port % 2) 55), q.addr] ++ ext) ::
    rest.mapIdx (fun i p => Flit.mk' ⟨2, 5, i + 1 == rest.length, far, dest, 0, q.src.toNat, 0, 0, i⟩ p)

/-- The flits of a line operation put on the module that serves a stack window (R330, R516). [DESIGN CHOICE, log 70] -/
def Die.carry (d : Die) (q : Req) (w sop nl : Nat) (ext : List (BitVec 64)) (rest : List (List (BitVec 64))) : Die :=
  let ms := groupModules d.reg (d.rf (0x82400 + 4 * w) 3 0)
  match ms[(fld q.addr 47 0 - 0x100000000000) % windowSize / 64 % max 1 ms.length]? with
  | none => d.porchErr 0 6 0 St.NO_ROUTE
  | some m => d.modMod m (fun x => { x with egress := x.egress ++ (q.flits sop nl ext rest false 0).map (fun f => (⟨d.addr, d.addr, f⟩ : LFlit)) })

/-- The lines of a line operation read as one access, and its status; none while a bank wakes (R160, R501). [DEDUCED, log 34] -/
def Die.linesAt (d : Die) (q : Req) (nl : Nat) : Option (Die × List (BitVec 64) × Status) :=
  let all := (q.lineAddrs nl).foldl (fun (x : Option (Die × List (BitVec 64) × AccFlags)) a =>
    match x with
    | none => none
    | some (d, ws, fl) => (d.lineAt (d.place a)).map (fun r => (r.1, ws ++ r.2.1, fl.or r.2.2))) (some (d, [], {}))
  all.map (fun x => (x.1.noteAccess (((d.place q.addr).code).getD 0) x.2.2, x.2.1, x.2.2.status))

/-- One line written under a mask for every byte: memory, or eight instruction words, of which protected ones stay (R165, R518); what the
write met and the status of the words. -/
def Die.putLine (d : Die) (p : Place) (data masks : List Byte) : Option (Die × AccFlags × Status) :=
  match p with
  | .mem c m off =>
    (d.writeBytes c m (((data.zip masks).mapIdx (fun i x => (off + i, x.1, x.2))).filter (fun x => x.2.2 != 0))).map (fun r => (r.1, r.2, St.OK))
  | .store c off =>
    let cc : CoreCode := BitVec.ofNat 12 c
    let x := (List.range 8).foldl (fun (x : Die × Status) i =>
      let word (bs : List Byte) : BitVec 64 := BitVec.ofNat 64 (leNat ((bs.drop (8 * i)).take 8))
      if word masks = 0 then x
      else
        let r := x.1.atCoreS cc (fun w => w.writeInstr (off / 8 + i) (word data) (word masks))
        (r.1, if x.2 = St.OK then r.2 else x.2)) (d, St.OK)
    some (x.1, {}, x.2)
  | _ => some (d, {}, St.SVC_BAD)

/-- The lines of a line operation written under their masks as one access, and its status; none while a bank wakes (R160, R501). -/
def Die.putLines (d : Die) (q : Req) (nl : Nat) (data masks : List Byte) : Option (Die × Status) :=
  let all := ((q.lineAddrs nl).zipIdx).foldl (fun (x : Option (Die × AccFlags × Status)) a =>
    match x with
    | none => none
    | some (d, fl, st) =>
      (d.putLine (d.place a.1) ((data.drop (64 * a.2)).take 64) ((masks.drop (64 * a.2)).take 64)).map (fun r =>
        (r.1, fl.or r.2.1, if st = St.OK then r.2.2 else st))) (some (d, {}, St.OK))
  all.map (fun x => (x.1.noteAccess (((d.place q.addr).code).getD 0) x.2.1, if x.2.2 = St.OK then x.2.1.status else x.2.2))

/-! ### Responses (R500, R501, R549) -/

/-- Is a waiting flit this request's, by word 1, requester and port? (R500) -/
def Req.isFlit (q : Req) (f : Flit) : Bool :=
  f.h.vc == 2 && f.h.kind == 5 && f.h.src == q.src.toNat && f.word 1 == q.addr && fld (f.word 0) 47 32 == q.rdie.toNat && fld (f.word 0) 55 55 == q.port

/-- The flits of a response: data flits of a LINE_READ that succeeds, otherwise one Service response (R500, R501). -/
def replyFlits (h : Hdr) (f : Flit) (lines : Bool) (st : Status) (data : List (BitVec 64)) : List Flit :=
  if lines ∧ st = St.OK then
    let n := data.length / 8
    (List.range n).map (fun k => Flit.mk' { h with kind := 5, tail := k + 1 == n, fidx := k } ((data.drop (8 * k)).take 8))
  else [Flit.mk' { h with kind := 6, tail := true } ([f.word 0 ||| BitVec.ofNat 64 st.toNat, f.word 1] ++ (if data.isEmpty then [] else [data.headD 0]))]

/-- The header of a response to a request flit: to a core of this die, or far, through the module on which the request came (R325, R327). -/
def Die.replyHdr (d : Die) (q : Req) (f : Flit) (me : Nat) : Hdr :=
  match q.via with
  | .module m => ⟨2, 6, true, true, 64 * (f.h.src / 64) + m, f.h.dep, me, f.h.sep, if d.addrSet then q.rdie.toNat else 0xFFFF, f.h.src % 64⟩
  | _ => ⟨2, 6, true, false, f.h.src, f.h.dep, me, f.h.sep, f.h.mseq, 0⟩

/-- The message of a request among the flits that wait at its target: from its address flit to its TAIL. -/
def Req.message (q : Req) (fs : List Flit) : List Flit :=
  match fs.find? q.isFlit with
  | none => []
  | some f =>
    let same := fs.filter (fun g => g.h.vc == 2 && g.h.kind == 5 && g.h.src == f.h.src && g.h.sep == f.h.sep && g.h.mseq == f.h.mseq)
    let from_ := same.dropWhile (fun g => g != f)
    from_.take (((from_.findIdx? (fun g => g.h.tail)).getD 0) + 1)

/-- Has a request already come to its target as a flit: to a core, to a position with no core at work, or through the Cellar port? (R328,
R549) -/
def Die.delivered (d : Die) (q : Req) : Bool :=
  let l := fld q.addr 47 0
  if l < 2 ^ 32 then (d.core (l / 2 ^ 20)).rx.any q.isFlit || d.offRx.any (fun x => x.1 == l / 2 ^ 20 && q.isFlit x.2) else d.celRx.any q.isFlit

/-- A request's flits taken from where they wait, with the address flit (R549). -/
def Die.takeReq (d : Die) (q : Req) : Die × Option Flit :=
  let l := fld q.addr 47 0
  if l < 2 ^ 32 then
    let code := l / 2 ^ 20
    let c := d.core code
    let here := q.message c.rx
    let off := q.message ((d.offRx.filter (fun x => x.1 == code)).map (·.2))
    if here ≠ [] then (d.setCore code { c with rx := removeFlits c.rx here }, here.head?)
    else ({ d with offRx := off.foldl (fun l g => l.erase (code, g)) d.offRx }, off.head?)
  else
    let here := q.message d.celRx
    ({ d with celRx := removeFlits d.celRx here }, here.head?)

/-- A request answered: the response noted, and, where the request came as flits, those taken from the core, the position or the Cellar port
that holds them and the response put into the mesh, to the Cellar through its port (R500, R549). -/
def Die.answer (d : Die) (q : Req) (lines : Bool) (st : Status) (data : List (BitVec 64)) : Die :=
  let d := d.respond q st data
  let l := fld q.addr 47 0
  if d.delivered q = false then d
  else
    match d.takeReq q with
    | (d, none) => d
    | (d, some f) =>
      let me := if l < 2 ^ 32 then l / 2 ^ 20 else 0
      let out := (replyFlits (d.replyHdr q f me) f lines st data).map (fun g => match q.via with
        | .cellar => { g with port := true }
        | _ => g)
      if l < 2 ^ 32 then out.foldl (fun d g => d.enter me 0 g) d else d.toPort out

/-! ### A request served (R500 to R503) -/

/-- Are a request's lines read? (R501) -/
def SvcOp.isLines : SvcOp → Bool
  | .lines _ => true
  | _ => false

/-- The data of a request that is refused: a word that is read returns 0 (R502). -/
def SvcOp.refused : SvcOp → List (BitVec 64)
  | .read => [0]
  | _ => []

/-- The first status of R502 that a request meets. -/
def Die.svcCheck (d : Die) (q : Req) : SvcOp → Status
  | .read => d.wordCheck q true
  | .write _ _ _ => d.wordCheck q false
  | .lines nl => d.lineCheck q nl true
  | .put _ nl _ _ _ _ => d.lineCheck q nl false

/-- The status of a request that has passed its checks and waits for a bank: its core may have left meanwhile (R29, R392). -/
def Die.stillThere (d : Die) (q : Req) : Status :=
  let st := d.reach (d.place q.addr) true q
  if st = St.NO_CORE ∨ st = St.REGION_OFF then st else St.OK

/-- Must a request wait for a bank to wake? (R161) [DESIGN CHOICE, log 33] -/
def Die.bankWaits (d : Die) (q : Req) (op : SvcOp) : Bool :=
  let waits (n : Nat) (a : BitVec 64) : Bool := match d.place a with
    | .mem c m off => Wk.mustWait ⟨d.env (BitVec.ofNat 12 c), d.core c, []⟩ m ((List.range n).map (fun i => off + i))
    | _ => false
  match op with
  | .read => waits 4 q.addr
  | .write _ _ _ => waits 4 q.addr
  | .lines nl => (q.lineAddrs nl).any (waits 64)
  | .put _ nl _ _ _ _ => (q.lineAddrs nl).any (waits 64)

/-- A request after its checks: the die, and the status and data of its response, none while the response waits: for the Doorlatch or a log
die, or for a memory hub (R330, R455, R459). A LINE_READ that does not complete with OK returns no data (R501).
[DEDUCED, log 34] [DESIGN CHOICE, log 70] -/
def Die.runOp (d : Die) (q : Req) : SvcOp → Die × Option (Status × List (BitVec 64))
  | .read =>
    match d.readWord q with
    | some r => (r.1, some (r.2.2, [r.2.1.setWidth 64]))
    | none => (d, none)
  | .write v lines bad =>
    let x := d.writeWord q (d.place q.addr) v lines bad
    (x.1, x.2.map (fun st => (st, [])))
  | .lines nl =>
    match d.place q.addr with
    | .stack w => (d.carry q w 0x12 nl [] [], none)
    | _ =>
      match d.linesAt q nl with
      | some r => (r.1, some (r.2.2, if r.2.2 = St.OK then r.2.1 else []))
      | none => (d, none)
  | .put sop nl data masks ext flits =>
    match d.place q.addr with
    | .stack w => (d.carry q w sop nl ext flits, none)
    | _ =>
      match d.putLines q nl data masks with
      | some r => (r.1, some (r.2, []))
      | none => (d, none)

/-- A core's request turned away by the windows counts at the core whose memory it names (R157). -/
def Die.noteDenied (d : Die) (q : Req) (st : Status) : Die :=
  match d.place q.addr with
  | .mem c _ _ => if st = St.WIN_DENIED then d.onCore (BitVec.ofNat 12 c) (fun w => (w.bump 0x940 1).memErr St.WIN_DENIED) else d
  | _ => d

/-- A request served in its turn: refused, held until its bank has woken, or done and answered (R161, R502).
[DESIGN CHOICE, log 33] -/
def Die.serveNow (d : Die) (h : Held) : Die :=
  let q := h.req
  let st := if h.checked then d.stillThere q else d.svcCheck q h.op
  if st ≠ St.OK then (d.noteDenied q st).answer q h.op.isLines st h.op.refused
  else if d.bankWaits q h.op then { d with held := d.held ++ [{ h with checked := true }] }
  else match d.runOp q h.op with
    | (d', some (st, ws)) => d'.answer q h.op.isLines st ws
    | (d', none) => d'

/-- Are two requests of one requester? (R449, R503) [DESIGN CHOICE, log 33] -/
def Req.sameWay (a b : Req) : Bool := a.port == b.port && a.rdie == b.rdie && a.byPort == b.byPort && (a.byPort || a.src == b.src)

/-- Does a request stand behind one of its requester that waits at the same core? (R503) -/
def Die.behind (d : Die) (q : Req) : Bool := d.held.any (fun h => h.req.sameWay q && (d.place h.req.addr).code == (d.place q.addr).code)

/-- The requests that wait, each tried again in its turn (R161, R503). [DESIGN CHOICE, log 33] -/
def Die.serveHeld (d : Die) : Die :=
  if d.held.isEmpty then d
  else d.held.foldl (fun d h => if d.behind h.req then { d with held := d.held ++ [h] } else d.serveNow h) { d.latchDue with held := [] }

/-- The die that a request's fabric address names (R513). -/
def Req.die (q : Req) : DieAddr := BitVec.ofNat 16 (fld q.addr 63 48)

/-- Is a request for this die? (R325, R513) -/
def Die.mine (d : Die) (q : Req) : Bool := q.die == 0xFFFF || q.die == d.addr || d.delivered q

/-- Can a request come by its way? A link module carries only while it is ACTIVE (R314). -/
def Die.comes (d : Die) (q : Req) : Bool :=
  match q.via with
  | .module m => d.modState m == 3 || d.delivered q
  | _ => true

/-- The flits a request goes on as; a far one carries the die it is bound for. -/
def Req.asFlits (q : Req) (op : SvcOp) (far : Bool) (dest : Nat) : List Flit :=
  match op with
  | .read => q.flits 0x10 1 [] [] far dest
  | .write v _ _ => q.flits 0x11 1 [v.setWidth 64] [] far dest
  | .lines nl => q.flits 0x12 nl [] [] far dest
  | .put sop nl _ _ ext flits => q.flits sop nl ext flits far dest

/-- A request for another die put on its way to the module that R326 gives, or answered with NO_ROUTE; one that came by a link before
the die has an address is discarded (R325, R328, R513, R549). [DEDUCED, log 71] -/
def Die.sendOn (d : Die) (q : Req) (op : SvcOp) : Die :=
  let sd : DieAddr := match q.via with
    | .module _ => q.rdie
    | _ => d.addr
  let at_ : Option Nat := match q.via with
    | .module m => some m
    | _ => none
  if d.addrSet = false ∧ at_.isSome then d.porchErr 0 2 (at_.getD 0) St.ADDR_UNSET
  else match routeModule d.reg q.die (flowKey sd q.src.toNat) with
    | none => (d.porchErr 0 (if at_.isSome then 2 else 6) (at_.getD 0) St.NO_ROUTE).answer q false St.NO_ROUTE []
    | some (o, _) =>
      let fs := (q.asFlits op true o).map (fun (f : Flit) => { f with transit := some (q.die, sd, fld q.addr 31 20) })
      match q.via with
      | .module m => fs.foldl (fun d f => d.enter (edgeRouter m (flowKey sd q.src.toNat)) 5 f) d
      | .cellar => d.toPort fs
      | .core c => fs.foldl (fun d f => d.enter c.toNat 0 f) d

/-- Does the Cellar send this request into the mesh: one for a core window, which has not come to its core yet? (R549) -/
def Die.portSends (d : Die) (q : Req) : Bool :=
  match q.via with
  | .cellar => decide (fld q.addr 47 0 < 2 ^ 32) && isCore (fld q.addr 31 20) && d.meshOn && !d.delivered q
  | _ => false

/-- A Service request as a command: for this die it is served, or waits behind an earlier one; for another die it goes on, and the Cellar's for
a core window goes through its port and is served by the command that finds it there; by a module that is not ACTIVE none comes (R314, R503,
R513, R549). [DESIGN CHOICE, log 122] -/
def Die.serve (d : Die) (q : Req) (op : SvcOp) : Die :=
  if d.comes q = false then d
  else if d.mine q = false then d.sendOn q op
  else if d.portSends q then d.toPort (q.asFlits op false (fld q.addr 31 20))
  else
    let d := d.latchDue
    if d.behind q then { d with held := d.held ++ [⟨q, op, false⟩] } else d.serveNow ⟨q, op, false⟩

/-- READ32 as a command. -/
def Die.doRead (d : Die) (q : Req) : Die := d.serve q .read

/-- WRITE32 as a command. -/
def Die.doWrite (d : Die) (q : Req) (v : Word) (lines : List (BitVec 512)) (bad : Bool) : Die := d.serve q (.write v lines bad)

/-- LINE_READ as a command. -/
def Die.doLineRead (d : Die) (q : Req) (nl : Nat) : Die := d.serve q (.lines nl)

/-- The first words of a list, made up to `n` with zeros. -/
def padTo (n : Nat) (l : List (BitVec 64)) : List (BitVec 64) := (l ++ List.replicate (n - l.length) 0).take n

/-- LINE_WRITE as a command: nl data flits of eight words, byte enables for the first six (R501). -/
def Die.doLineWrite (d : Die) (q : Req) (lines : List (List (BitVec 64))) (enables : List (BitVec 64)) : Die :=
  let masks := (List.range lines.length).flatMap (fun k =>
    (List.range 64).map (fun i => if k < 6 ∧ bit (nth 0 enables k) i = false then (0 : Byte) else 0xFF))
  d.serve q (.put 0x13 lines.length (lines.flatMap (fun l => payBytes (padTo 8 l))) masks (padTo 6 enables) lines)

/-- LINE_WRITE_BITS as a command: nl data flits, each with its enable flit. -/
def Die.doLineBits (d : Die) (q : Req) (lines enables : List (List (BitVec 64))) : Die :=
  let eight (l : List (BitVec 64)) : List Byte := payBytes (padTo 8 l)
  d.serve q (.put 0x14 lines.length (lines.flatMap eight) ((List.range lines.length).flatMap (fun k => eight (nth [] enables k))) []
    ((List.range lines.length).flatMap (fun k => [nth [] lines k, nth [] enables k])))

/-- A write's outcome answered, unless its response waits. -/
def Die.settle (x : Die × Option Status) (q : Req) : Die :=
  match x.2 with
  | some st => x.1.answer q false st []
  | none => x.1

/-- A command that is a write of one register of die control, at `off`, by a requester: its way, the domain's power, the guard, then the
effect `f`, then the response (R314, R392, R452, R502). [DESIGN CHOICE, log 113] -/
def Die.portCmd (d : Die) (q : Req) (off : Nat) (f : Die → Die × Option Status) : Die :=
  if d.comes q = false then d
  else
    let d := d.latchDue
    let st := if dieBlock off = some true ∧ d.meshOn = false then St.REGION_OFF
      else if q.byPort = false then St.WIN_DENIED else d.mayWrite q (.die off)
    if st ≠ St.OK then d.answer q false st [] else Die.settle (f d) q

end Sys2Proof.Machine
end

