-- ==== Sys2Proof/Machine/Spdm.lean ====
section
/-! DEFINITION. The SPDM responder: keys, certificates, and the seven requests it answers (R467 to R471). The layouts of the messages are
those of SPDM 1.2, which the manual names and does not restate. -/

namespace Sys2Proof.Machine

/-! ### Keys and nonces (R468 to R470) -/

/-- The order of the P-384 group. -/
def p384Order : Nat :=
  0xFFFFFFFFFFFFFFFFFFFFFFFFFFFFFFFFFFFFFFFFFFFFFFFFC7634D81F4372DDF581A0DB248B0A77AECEC196ACCC52973

/-- ASCII characters as bytes. -/
def ascii (s : String) : List Byte := s.toList.map (fun c => BitVec.ofNat 8 c.toNat)

/-- A private key derived from the fuse secret (R468). [PRESUMED, log 105] -/
def deriveKey (msg : List Byte) : Nat := 1 + beNat (hmac384 Config.fuseSecret msg) % (p384Order - 1)

/-- The DevID key. -/
def Die.devKey (d : Die) : Nat := deriveKey (ascii "QZ-AY7 DEVID" ++ beBytes 8 d.fuses.serial.toNat)

/-- The alias key. -/
def Die.aliasKey (d : Die) : Nat := deriveKey (ascii "QZ-AY7 ALIAS" ++ d.meas 0 ++ d.meas 1)

/-- The certificate chain of slot 0 (R469). -/
def Die.chain (d : Die) : List Byte := Config.certChain d.devKey d.aliasKey d.fuses.serial

/-- A fresh responder nonce (R470). [DESIGN CHOICE, log 108] -/
def Die.nonce (d : Die) : Die × List Byte :=
  ({ d with nonces := d.nonces + 1 },
   (hmac384 Config.fuseSecret (ascii "QZ-AY7 NONCE" ++ beBytes 8 d.ts.toNat ++ beBytes 8 d.nonces)).take 32)

/-- What is signed of a transcript: the version prefix and context of SPDM 1.2, then the transcript's digest. -/
def signedHash (context : String) (transcript : List Byte) : BitVec 384 :=
  let prefix_ := (List.range 4).flatMap (fun _ => ascii "dmtf-spdm-v1.2.*")
  let ctx := ascii context
  BitVec.ofNat 384 (beNat (sha384 (prefix_ ++ List.replicate (36 - ctx.length) 0 ++ ctx ++ sha384 transcript)))

/-! ### The mailbox (R471) -/

/-- The message in a port's request buffer. [PRESUMED, log 107] -/
def Die.spdmMsg (d : Die) (p : Nat) : List Byte :=
  let s := d.spdmOf p
  (s.req ++ List.replicate (4096 - s.req.length) 0).take (d.rf (0x200200 + 16 * p) 12 0)

/-- Byte `i` of a message as a number. -/
def byteAt (m : List Byte) (i : Nat) : Nat := (nth 0 m i).toNat

/-- A response written: LEN and DONE set, BUSY cleared. [PRESUMED, log 107] -/
def Die.spdmReply (d : Die) (p : Nat) (resp : List Byte) : Die :=
  let r := resp.take 4096
  ((d.modSpdm p (fun s => { s with busy := false, resp := r })).setF (0x200204 + 16 * p) 12 0 r.length).setFlag (0x200204 + 16 * p) 30

/-- An ERROR message. [PRESUMED, log 107] -/
def spdmError (code data : Nat) : List Byte := [0x12, 0x7F, BitVec.ofNat 8 code, BitVec.ofNat 8 data]

/-- The request codes that the responder handles (R470). -/
def spdmCodes : List Nat := [0x84, 0xE1, 0xE3, 0x81, 0x82, 0x83, 0xE0]

/-- SPDM_REQUEST (R470, R471): GO takes the message; a request that the responder does not handle is answered with ERROR at once. -/
def Die.spdmRequest (d : Die) (q : Req) (p : Nat) (v : Word) : Die × Option Status :=
  let x := d.spdmGo q p v
  if x.2 = some St.OK ∧ bit v 31 then
    let m := x.1.spdmMsg p
    if spdmCodes.contains (byteAt m 1) then x else (x.1.spdmReply p (spdmError 7 (byteAt m 1)), x.2)
  else x

/-- A request of one code handled when it waits in the mailbox; `f` gives the response from the message. -/
def Die.spdmHandle (d : Die) (p code : Nat) (f : Die → List Byte → Die × List Byte) : Die :=
  let m := d.spdmMsg p
  if (d.spdmOf p).busy = false ∨ byteAt m 1 ≠ code then d
  else let r := f d m; r.1.spdmReply p r.2

/-! ### The requests (R470) -/

/-- GET_VERSION: the port's state is reset, and version 1.2 listed. -/
def Die.getVersion (d : Die) (p : Nat) : Die :=
  d.spdmHandle p 0x84 (fun d m =>
    let r : List Byte := [0x10, 0x04, 0, 0, 0, 1, 0x00, 0x12]
    (d.modSpdm p (fun s => { s with stage := 1, transA := m ++ r, transB := [], transM := [] }), r))

/-- GET_CAPABILITIES: CERT, CHAL, MEAS with signature and ALIAS_CERT; CTExponent 15. [PRESUMED, log 107] -/
def Die.getCapabilities (d : Die) (p : Nat) : Die :=
  d.spdmHandle p 0xE1 (fun d m =>
    if (d.spdmOf p).stage = 0 then (d, spdmError 4 0)
    else
      let r : List Byte := [0x12, 0x61, 0, 0, 0, 15, 0, 0] ++ leBytes 4 0x40016 ++ leBytes 4 4096 ++ leBytes 4 4096
      (d.modSpdm p (fun s => { s with stage := max 2 s.stage, transA := s.transA ++ m ++ r }), r))

/-- NEGOTIATE_ALGORITHMS: P-384 and SHA-384, or ERROR when the request does not offer them. [PRESUMED, log 107] -/
def Die.negotiate (d : Die) (p : Nat) : Die :=
  d.spdmHandle p 0xE3 (fun d m =>
    if (d.spdmOf p).stage < 2 then (d, spdmError 4 0)
    else if (byteAt m 6).testBit 0 = false ∨ (leAt m 8 4).testBit 7 = false ∨ (leAt m 12 4).testBit 1 = false then (d, spdmError 1 0)
    else
      let r : List Byte := [0x12, 0x63, 0, 0] ++ leBytes 2 36 ++ [1, 0] ++ leBytes 4 4 ++ leBytes 4 0x80 ++ leBytes 4 2 ++ List.replicate 16 0
      (d.modSpdm p (fun s => { s with stage := 3, transA := s.transA ++ m ++ r }), r))

/-- GET_DIGESTS. -/
def Die.getDigests (d : Die) (p : Nat) : Die :=
  d.spdmHandle p 0x81 (fun d m =>
    if (d.spdmOf p).stage < 3 then (d, spdmError 4 0)
    else
      let r : List Byte := [0x12, 0x01, 0, 1] ++ sha384 d.chain
      (d.modSpdm p (fun s => { s with transB := s.transB ++ m ++ r }), r))

/-- GET_CERTIFICATE: slot 0 by offset and length. -/
def Die.getCertificate (d : Die) (p : Nat) : Die :=
  d.spdmHandle p 0x82 (fun d m =>
    if (d.spdmOf p).stage < 3 then (d, spdmError 4 0)
    else
      let c := d.chain
      let off := leAt m 4 2
      if byteAt m 2 % 16 ≠ 0 ∨ c.length ≤ off then (d, spdmError 1 0)
      else
        let n := min (min (leAt m 6 2) 4088) (c.length - off)
        let r : List Byte := [0x12, 0x02, 0, 0] ++ leBytes 2 n ++ leBytes 2 (c.length - off - n) ++ (c.drop off).take n
        (d.modSpdm p (fun s => { s with transB := s.transB ++ m ++ r }), r))

/-- The measurement summary hash: measurements 0 and 1 for TCB, all four otherwise (R470). -/
def Die.summary (d : Die) (kind : Nat) : List Byte :=
  if kind = 0 then [] else sha384 ((List.range (if kind = 1 then 2 else 4)).flatMap d.meas)

/-- CHALLENGE: CHALLENGE_AUTH signed by the alias key. [PRESUMED, log 107] -/
def Die.challenge (d : Die) (p : Nat) : Die :=
  d.spdmHandle p 0x83 (fun d m =>
    if (d.spdmOf p).stage < 3 then (d, spdmError 4 0)
    else if byteAt m 2 ≠ 0 ∨ ¬ (byteAt m 3 = 0 ∨ byteAt m 3 = 1 ∨ byteAt m 3 = 0xFF) then (d, spdmError 1 0)
    else
      let (d, n) := d.nonce
      let r : List Byte := [0x12, 0x03, 0, 1] ++ sha384 d.chain ++ n ++ d.summary (byteAt m 3) ++ [0, 0]
      let s := d.spdmOf p
      let sig := Config.ecdsaSign d.aliasKey (signedHash "responder-challenge_auth signing" (s.transA ++ s.transB ++ m ++ r))
      (d.modSpdm p (fun s => { s with transB := [] }), r ++ sig))

/-- A measurement block: index, specification, size, value type and digest (R470). -/
def Die.measBlock (d : Die) (i : Nat) : List Byte :=
  [BitVec.ofNat 8 i, 1] ++ leBytes 2 51 ++ [BitVec.ofNat 8 (i - 1)] ++ leBytes 2 48 ++ d.meas (i - 1)

/-- GET_MEASUREMENTS: the count, one of the indices 1 to 4, or all; signed by the alias key when asked. [PRESUMED, log 107] -/
def Die.getMeasurements (d : Die) (p : Nat) : Die :=
  d.spdmHandle p 0xE0 (fun d m =>
    if (d.spdmOf p).stage < 3 then (d, spdmError 4 0)
    else
      let sign := (byteAt m 2).testBit 0
      let op := byteAt m 3
      if 4 < op ∧ op ≠ 0xFF then (d, spdmError 1 0)
      else
        let idx : List Nat := if op = 0 then [] else if op = 0xFF then [1, 2, 3, 4] else [op]
        let blocks := idx.flatMap d.measBlock
        let (d, n) := d.nonce
        let r : List Byte := [0x12, 0x60, if op = 0 then 4 else 0, 0, BitVec.ofNat 8 idx.length] ++ leBytes 3 blocks.length ++ blocks ++ n ++ [0, 0]
        let s := d.spdmOf p
        let l := s.transM ++ m ++ r
        if sign then
          let sig := Config.ecdsaSign d.aliasKey (signedHash "responder-measurements signing" (s.transA ++ l))
          (d.modSpdm p (fun s => { s with transM := [] }), r ++ sig)
        else (d.modSpdm p (fun s => { s with transM := l }), r))

end Sys2Proof.Machine
end

