-- ==== Sys2Proof/Machine/State.lean ====
section
/-! DEFINITION. The whole state of the block, as plain data: the die, its management bus, its test access port, and the commands that
wait, first in, first out; with the reasons a step can stop, and the state right after reset. -/

namespace Sys2Proof.Machine

/-- Why a command would stop the machine. The spec ends every command with an effect or with a status that it records or returns, so
no meaning raises this; a stop here would be safe. [DESIGN CHOICE, log 15] -/
inductive Fault where
  /-- Raised by no meaning. Safe: the machine would stop where the hardware goes on. -/
  | none
deriving DecidableEq, Repr

/-- Why a command has no meaning. [DESIGN CHOICE, log 15] -/
inductive Refusal where
  /-- An arm of exec that has no meaning yet: raised by none. Safe: nothing is claimed of the command. -/
  | notModelled (mnemonic : String)
deriving DecidableEq, Repr

/-- The block. [DESIGN CHOICE, log 7] -/
structure State where
  die : Die
  bus : Bus
  tap : Tap
  pending : List Instr
deriving DecidableEq, Repr

/-- The block right after reset: PORST_N still low with PG_AON high, nothing listed in any table, no command waiting.
[DESIGN CHOICE, log 1] [DESIGN CHOICE, log 8] -/
def State.reset : State := ⟨Die.reset, Bus.reset, Tap.reset, []⟩

end Sys2Proof.Machine
end

