-- ==== Sys2Proof/Machine/Mgmt.lean ====
section
/-! DEFINITION. The management bus with its telemetry view and emergency power-off, the test access port, the fault log's writing,
CE_STORM, and the three register commands that name no register of their own (R16, R17, R19, R472, R473, R494, R499, R504, R505,
R542 to R546). -/

namespace Sys2Proof.Machine

/-! ### The telemetry view (R473, R504, R505) -/

/-- The register that a telemetry index copies, at its offset in die control (R504). -/
def teleReg (i : Nat) : Option Nat :=
  let within (lo hi : Nat) : Bool := decide (lo ≤ i) && decide (i ≤ hi)
  if within 0x1 0x2 then some (4 * i)
  else if i = 0x3 then some 0x140000
  else if i = 0x4 then some 0x140004
  else if i = 0x5 then some 0x1C0050
  else if i = 0x6 then some 0x100064
  else if i = 0x7 then some 0x100068
  else if i = 0x8 then some 0x100038
  else if i = 0x9 then some 0x100020
  else if i = 0xA then some 0x100024
  else if i = 0xB then some 0x10003C
  else if i = 0xC then some 0x100040
  else if i = 0xD then some 0x100004
  else if i = 0xE then some 0x100058
  else if i = 0xF then some 0x100028
  else if i = 0x10 then some 0x1C0044
  else if i = 0x11 then some 0xC0000
  else if i = 0x12 then some 0xC0004
  else if i = 0x13 then some 0xC002C
  else if i = 0x14 then some 0xC0028
  else if i = 0x15 then some 0x80008
  else if i = 0x16 then some 0x240004
  else if i = 0x17 then some 0x240008
  else if within 0x18 0x1B then some (0x240010 + 4 * (i - 0x18))
  else if within 0x1C 0x21 then some (0x240020 + 4 * (i - 0x1C))
  else if within 0x30 0x53 then some (0x100200 + 4 * (i - 0x30))
  else if within 0x58 0x5B then some (0x100048 + 4 * (i - 0x58))
  else if within 0x60 0x73 then some (0x100100 + 4 * (i - 0x60))
  else if within 0x80 0xAF then some (modOff (i - 0x80) 1)
  else if within 0x100 0x1FF then some (0x241000 + 4 * (i - 0x100))
  else none

/-- A telemetry word: a register whose domain is off reads 0, an index not listed reads 0 (R504, R505). -/
def Die.telemetry (d : Die) (i : Nat) : Word :=
  if i = 0 then BitVec.ofNat 32 (put 1 16 + put (b2n (d.job.state ≠ 0)) 2 + put (b2n d.meshOn) 1)
  else match teleReg i with
    | none => 0
    | some off => if dieBlock off = some true ∧ d.meshOn = false then 0 else d.viewDie off

/-- The key of the bus's own shadow of a high word (R19, R505). -/
def busKey (off : Nat) : Nat := 2 ^ 100 + off

/-- The telemetry word read by the bus: a low word latches its high word for the bus, and nothing is cleared (R19, R473, R505).
[DESIGN CHOICE, log 14] -/
def Die.busWord (d : Die) (i : Nat) : Die × Word :=
  match teleReg i with
  | none => (d, d.telemetry i)
  | some off =>
    match d.shadow.find? (fun e => e.1 == busKey off) with
    | some e => ({ d with shadow := d.shadow.filter (fun e => e.1 != busKey off) }, e.2)
    | none =>
      if Place.lowWord (.die off) then
        ({ d with shadow := (d.shadow.filter (fun e => e.1 != busKey (off + 4))) ++ [(busKey (off + 4), d.telemetry (i + 1))] }, d.telemetry i)
      else (d, d.telemetry i)

/-- Is the management bus usable? From the end of phase ROM, HALTED included (R472). [DEDUCED, log 111] -/
def Die.busOn (d : Die) : Bool := !d.boot.porst && d.phase != 0

/-- The bus's state changed, when the bus is usable. [DEDUCED, log 111] -/
def State.onBus (s : State) (f : Bus → Bus) : State := if s.die.busOn then { s with bus := f s.bus } else s

/-- TELEMETRY_INDEX_WRITE (R473, R505). [DEDUCED, log 110] -/
def State.teleIndex (s : State) (i : BitVec 16) : State := s.onBus (fun b => { b with index := i })

/-- One telemetry word read, and the index moved on. -/
def State.teleWord (s : State) : State :=
  let r := s.die.busWord s.bus.index.toNat
  { s with die := r.1, bus := { s.bus with index := s.bus.index + 1, out := s.bus.out ++ [r.2] } }

/-- TELEMETRY_READ (R473, R505): `n` consecutive words from the index, which is left at the word after the last. -/
def State.teleRead (s : State) (n : Nat) : State :=
  if s.die.busOn then iter n (fun _ s => s.teleWord) { s with bus := { s.bus with out := [] } } else s

/-! ### Emergency power-off (R408, R473) -/

/-- EPO_ARM (R473): 0xE0 with 0xA5 arms for 32,768 AON ticks; 0xE0 with other data is another private write and disarms.
[DEDUCED, log 110] -/
def State.epoArm (s : State) (data : Byte) : State :=
  s.onBus (fun b => { b with armed := if data = 0xA5 then some (s.die.aon.toNat + 32768) else none })

/-- Is an arm in force? -/
def State.epoArmed (s : State) : Bool :=
  match s.bus.armed with
  | some t => decide (s.die.aon.toNat ≤ t)
  | none => false

/-- EPO_ARM_EXPIRY (R473): an arm that no fire has followed in time lapses. -/
def State.epoExpiry (s : State) : State := if s.epoArmed then s else { s with bus := { s.bus with armed := none } }

/-- EPO_FIRE (R408, R473): with an arm in force, 0xE1 with 0x5A runs the shutdown sequence with cause EPO; otherwise it disarms.
[DEDUCED, log 110] -/
def State.epoFire (s : State) (data : Byte) : State :=
  if s.die.busOn then
    { s with bus := { s.bus with armed := none }
             die := if s.epoArmed ∧ data = 0x5A then s.die.shutDown 2 0 St.EPO else s.die }
  else s

/-! ### I3C common command codes (R472) -/

/-- ENTDAA: a die with no dynamic address takes the one it wins. [DESIGN CHOICE, log 109] -/
def State.entdaa (s : State) (a : BitVec 7) : State := s.onBus (fun b => { b with dynamic := some (b.dynamic.getD a) })

/-- SETDASA: a dynamic address from the static address, for a die that has none. [DESIGN CHOICE, log 109] -/
def State.setdasa (s : State) (a : BitVec 7) : State := s.onBus (fun b => { b with dynamic := some (b.dynamic.getD a) })

/-- SETNEWDA: the dynamic address changed. [DESIGN CHOICE, log 109] -/
def State.setnewda (s : State) (a : BitVec 7) : State := s.onBus (fun b => { b with dynamic := b.dynamic.map (fun _ => a) })

/-- RSTDAA: no dynamic address. -/
def State.rstdaa (s : State) : State := s.onBus (fun b => { b with dynamic := none })

/-- A direct GET command answered at the dynamic address. -/
def State.busGet (s : State) (ws : List Word) : State := s.onBus (fun b => if b.dynamic.isSome then { b with out := ws } else b)

/-- GETPID: manufacturer code 0x2C51 in [47:33], 1 in bit 32, the low 32 bits of the serial number; high word first.
[DESIGN CHOICE, log 109] -/
def State.getPid (s : State) : State := s.busGet [BitVec.ofNat 32 (put 0x2C51 1 + 1), s.die.fuses.serial.setWidth 32]

/-- GETBCR: a value the manual does not give. [DESIGN CHOICE, log 109] -/
def State.getBcr (s : State) : State := s.busGet [Config.i3cReg 0]

/-- GETDCR: a value the manual does not give. [DESIGN CHOICE, log 109] -/
def State.getDcr (s : State) : State := s.busGet [Config.i3cReg 1]

/-- GETSTATUS: a value the manual does not give. [DESIGN CHOICE, log 109] -/
def State.getStatus (s : State) : State := s.busGet [Config.i3cReg 2]

/-! ### The fault log (R492, R494, R499) -/

/-- FAULT_LOG_WRITE (R494): the oldest queued entry written at HEAD modulo 64, and the counter of its severity advanced. -/
def Die.logWrite (d : Die) : Die :=
  match d.flog with
  | [] => d
  | e :: rest =>
    let o := 0x241000 + 16 * (d.rf 0x240004 5 0)
    let d := (d.setNat o (e.ts.toNat % 2 ^ 32)).setNat (o + 4) (e.ts.toNat / 2 ^ 32)
    let d := d.setNat (o + 8) (put 1 31 + put e.src 28 + put (e.loc % 4096) 16 + e.st.toNat)
    let d := d.setNat (o + 12) (put e.sev 30 + put (if e.src = 0 then e.ctx else 0) 28 + put e.pcol 18 + e.span)
    { (d.bump 0x240004 1).bump (0x240010 + 4 * (e.sev % 4)) 1 with flog := rest }

/-- CE_STORM (R499): a core whose count of the present window has reached THR, once in a window. -/
def Die.ceStorm (d : Die) (code : CoreCode) : Die :=
  let c := d.core code.toNat
  let thr := d.rf 0x240038 15 0
  if thr ≠ 0 ∧ c.ceWin = d.cyc / 2 ^ 20 ∧ thr ≤ c.ceCnt ∧ c.ceRaised = false ∧ d.coreOn code.toNat then
    (d.setCore code.toNat { c with ceRaised := true }).report 0 0 code.toNat St.CE_STORM 0
  else d

/-! ### The test access port (R534, R542, R545, R546) -/

/-- Is PG_AON high, so that the TAP and the outputs are alive? [DESIGN CHOICE, log 112] -/
def Die.aonOn (d : Die) : Bool := d.pins.pwrEn != .z

/-- TAP_RESET (R542): TRST_N, or the loss of PG_AON, selects IDCODE. -/
def State.tapReset (s : State) : State := { s with tap := .reset }

/-- An instruction of the TAP with what its register shifts out and, for the boundary-scan register, takes in. -/
def State.tapRun (s : State) (ir : TapIr) (out : Nat) (cells : Option (List Bool)) : State :=
  if s.die.aonOn then { s with tap := ⟨ir, cells.getD s.tap.bsr, out⟩ } else s

/-- The levels of some bumps as one number, the first the lowest bit. -/
def levels (l : List Bool) : Nat := bitsOf l.length (fun i => nth false l i)

/-- EXTEST: the cells drive the outputs; the bumps' levels are shifted out. [DESIGN CHOICE, log 112] -/
def State.extest (s : State) (bumps cells : List Bool) : State := s.tapRun .extest (levels bumps) (some cells)

/-- SAMPLE/PRELOAD: the bumps' levels are shifted out and the cells loaded. [DESIGN CHOICE, log 112] -/
def State.samplePreload (s : State) (bumps cells : List Bool) : State := s.tapRun .sample (levels bumps) (some cells)

/-- IDCODE (R545). -/
def State.idcode (s : State) : State := s.tapRun .idcode 0x100A7753 none

/-- BYPASS, which every other code also selects (R545). [DESIGN CHOICE, log 112] -/
def State.bypass (s : State) : State := s.tapRun .bypass 0 none

/-- Who drives the management outputs: the boundary-scan cells under EXTEST, otherwise the die (R546). -/
def State.outputs (s : State) : Pins ⊕ List Bool := if s.tap.ir = .extest then .inr s.tap.bsr else .inl s.die.pins

/-- PORST_ASSERT (R542): the die and its bus are reset; the TAP is not. -/
def State.porst (s : State) : State := { s with die := s.die.porst, bus := .reset }

/-- POWER_GOOD_FALL (R541): a fall of PG_AON or PG_CEL acts as PORST_N, and the loss of PG_AON also resets the TAP (R542). -/
def State.railFall (s : State) (rail : Nat) : State :=
  { s with die := s.die.powerGoodFall rail, bus := if rail < 2 then .reset else s.bus, tap := if rail = 0 then .reset else s.tap }

/-! ### Register commands without a register of their own (R16, R17, R19, R501) -/

/-- A request that waits in a port's mailbox and that the responder does not handle is answered at once (R470). -/
def Die.spdmTurnAway (d : Die) : Die :=
  iter 2 (fun p d =>
    let m := d.spdmMsg p
    if (d.spdmOf p).busy ∧ spdmCodes.contains (byteAt m 1) = false then d.spdmReply p (spdmError 7 (byteAt m 1)) else d) d

/-- WRITE32, with what a GO to a mailbox brings. -/
def Die.write32Cmd (d : Die) (q : Req) (v : Word) (lines : List (BitVec 512)) (bad : Bool) : Die :=
  (d.doWrite q v lines bad).spdmTurnAway

/-- Is the place a register? -/
def Place.isReg : Place → Bool
  | .reg _ _ | .die _ => true
  | _ => false

/-- REGISTER_WRITE (R15, R16). [DESIGN CHOICE, log 113] -/
def Die.registerWrite (d : Die) (q : Req) (v : Word) : Die := if (d.place q.addr).isReg then d.write32Cmd q v [] false else d

/-- Is the place an RC register? (R16, R17) -/
def Place.isRc : Place → Bool
  | .reg _ off => if routerOff off then routerRc off else coreRc off
  | .die off => dieRc off
  | _ => false

/-- RC_READ (R17): the value returned, the field cleared. [DESIGN CHOICE, log 113] -/
def Die.rcRead (d : Die) (q : Req) : Die := if (d.place q.addr).isRc then d.doRead q else d

/-- LOW_WORD_READ (R19): the low word returned, the high word latched for the requester. [DESIGN CHOICE, log 113] -/
def Die.lowWordRead (d : Die) (q : Req) : Die := if (d.place q.addr).lowWord then d.doRead q else d

end Sys2Proof.Machine
end

