-- ==== Sys2Proof/Machine/Tick.lean ====
section
/-! DEFINITION. One core-clock cycle of a die with no command waiting: the counts of time, what a core does of itself, the routers'
grants, and what the die does of itself. -/

namespace Sys2Proof.Machine

/-- What a core does in one cycle with no command: its engines run on, remote waits are served, guards and stalls are counted.
[DESIGN CHOICE, log 2] [DESIGN CHOICE, log 116] [DESIGN CHOICE, log 117] -/
def Wk.cycle (w : Wk) : Wk := w.pump.serveRWaits.countGuards.countStalls.countDeps.arbitrate.onCore (fun c => c.countQuiet w.env.cyc)

/-- Every core's cycle. -/
def Die.coresCycle (d : Die) : Die := d.codes.foldl (fun d c => d.atCore c Wk.cycle) d

/-- THM_THR_DUR of every active reason advanced by one timestamp tick (R411). -/
def Die.countReasons (d : Die) : Die :=
  iter 10 (fun i d =>
    if bit (d.reg 0x100058) i then
      let o := 0x100100 + 8 * i
      let n := (d.reg o).toNat + 2 ^ 32 * (d.reg (o + 4)).toNat + 1
      (d.setNat o (n % 2 ^ 32)).setNat (o + 4) (n / 2 ^ 32)
    else d) d

/-- One AON tick: THM_AON and the Doorlatch (R11, R454, R455). [DEDUCED, log 12] -/
def Die.aonTick (d : Die) : Die := { d with aon := d.aon + 1, latch := d.latch.tick }

/-- Ten nanoseconds: the timestamp while the reference is present, and 128/390,625 of an AON tick (R11). [DEDUCED, log 12] -/
def Die.tenNs (d : Die) : Die :=
  let d := if d.boot.refOk then { d with ts := d.ts + 1 }.countReasons else d
  if 390625 ≤ d.aonSub + 128 then { d with aonSub := d.aonSub + 128 - 390625 }.aonTick else { d with aonSub := d.aonSub + 128 }

/-- Three parts of the 2 (6 + k) that make ten nanoseconds at P-state k (R11, R381). [DEDUCED, log 12] [DESIGN CHOICE, log 13] -/
def Die.clock (d : Die) : Die :=
  let d := { d with cyc := d.cyc + 1 }
  let n := 2 * (6 + d.pstate)
  if n ≤ d.sub + 3 then { d with sub := d.sub + 3 - n }.tenNs else { d with sub := d.sub + 3 }

/-- One cycle of the die with no command: nothing while PORST_N is low. [DESIGN CHOICE, log 2] -/
def Die.tick (d : Die) : Die :=
  if d.boot.porst then d
  else d.coresCycle.serveHeld.drainLandings.grantAll.countLearn.push31.advance31.serveRegions.clock

end Sys2Proof.Machine
end

