-- ==== Sys2Proof/Machine/Ops.lean ====
section
/-! DEFINITION. How a command reaches the die, a core, the mesh domain or a register of die control, and the events of which the die
itself finds the object: the first delivered flit of a kind, a pending wait, a shaper's register. -/

namespace Sys2Proof.Machine

/-! ### The die a command acts on -/

/-- The die changed by `f`. -/
def State.onDie (s : State) (f : Die → Die) : Host.Outcome State Fault Refusal := .next { s with die := f s.die }

/-- The die changed by `f`, unless PORST_N holds it in reset (R542). [DESIGN CHOICE, log 8] -/
def State.live (s : State) (f : Die → Die) : Host.Outcome State Fault Refusal := s.onDie (fun d => if d.boot.porst then d else f d)

/-- The die changed by `f` when its mesh domain is on (R391, R407, R417). -/
def State.inMesh (s : State) (f : Die → Die) : Host.Outcome State Fault Refusal := s.onDie (fun d => if d.meshOn then f d else d)

/-- A core changed by `f`, where the die has one at work (R29, R392). -/
def State.onCore (s : State) (c : CoreCode) (f : Wk → Wk) : Host.Outcome State Fault Refusal := s.onDie (fun d => d.atCore c f)

/-- A write of one register of die control by a requester (R392, R452, R502). [DESIGN CHOICE, log 6] -/
def State.port (s : State) (q : Req) (off : Nat) (f : Die → Die × Option Status) : Host.Outcome State Fault Refusal :=
  s.live (fun d => d.portCmd q off f)

/-! ### Delivered flits (R214, R219, R242, R264, R277) -/

/-- The first delivered flit that `p` picks, taken and given to `g`. [DESIGN CHOICE, log 4] [DESIGN CHOICE, log 6] -/
def Wk.takeRx (w : Wk) (p : Flit → Bool) (g : Wk → Flit → Wk) : Wk :=
  match w.c.rx.find? p with
  | none => w
  | some f => g (w.onCore (fun c => { c with rx := c.rx.erase f })) f

/-- The first delivered Hallway message of a MOP (R277). -/
def Wk.takeHall (w : Wk) (mop : Nat) (g : Wk → Flit → Wk) : Wk :=
  w.takeRx (fun f => f.h.vc == 0 && f.h.kind == 3 && fld (f.word 0) 63 60 == mop) g

/-- FLIT_DELIVERY (R214): the first delivered stream flit; one that has to wait for a bank of its spill ring stays. -/
def Wk.flitDelivery (w : Wk) : Wk :=
  match w.c.rx.find? (fun f => f.h.vc == 1 && decide (f.h.kind < 3)) with
  | none => w
  | some f => ((w.onCore (fun c => { c with rx := c.rx.erase f })).deliverFlit f).getD w

/-- ACK_RECEIVE (R219). -/
def Wk.ackDelivery (w : Wk) : Wk := w.takeRx (fun f => f.h.vc == 0 && f.h.kind == 4) (fun w f => w.receiveAck f.h)

/-- Is a read of the flit's channel and number outstanding? -/
def Core.readOut (c : Core) (h : Hdr) : Bool := (c.readOf h).isSome

/-- DMA_READ_RESPONSE (R242, R264, R266): the first delivered line of an outstanding read, or its error status. -/
def Wk.dmaReadResponse (w : Wk) : Wk :=
  w.takeRx (fun f => w.c.readOut f.h && ((f.h.vc == 1 && f.h.kind == 5) || (f.h.vc == 0 && f.h.kind == 6)))
    (fun w f => if f.h.kind = 5 then w.takeLine f else w.takeAck f)

/-- DMA_WRITE_ACK (R242): the first delivered response that answers no outstanding read. -/
def Wk.dmaWriteAck (w : Wk) : Wk := w.takeRx (fun f => f.h.vc == 0 && f.h.kind == 6 && !w.c.readOut f.h) Wk.takeAck

/-- An instruction ended at the head of queue `q`, code 0 the sequencer's own. -/
def Wk.endHead (w : Wk) (e : QEntry) (q : Nat) : Eng → Wk
  | .done w => if q = 0 then w.onCore (fun c => { c with sync0 := none }) else w.popQueue q
  | .wait _ => w
  | .refuse w st => w.refuseHead e q st

/-- The queue and the source of a reply, as `stale` lists them; `k` is 0 for a wait and 8 for a claim. -/
def Flit.staleKey (f : Flit) (k : Nat) : Nat × Int :=
  (fld (f.word 0) 33 30 + k, targetKey (BitVec.ofNat 16 (fld (f.word 1) 63 48), f.h.src))

/-- WAIT_REPLY (R275, R277, R285): the wait at the head of the queue that TAG names ends with the status; the reply to one that has ended
is discarded and counted. -/
def Wk.deliverWaitReply (w : Wk) (f : Flit) : Wk :=
  let q := fld (f.word 0) 33 30
  if w.c.stale.contains (f.staleKey 0) then (w.onCore (fun c => { c with stale := c.stale.erase (f.staleKey 0) })).bump 0xD208 1
  else match w.c.awaiting q 0x11 with
  | none => w
  | some e => w.endHead e q (w.endWait e 0 (BitVec.ofNat 16 (fld (f.word 1) 47 32)))

/-- TAKE_REPLY (R277, R279): the index to S[SD], or the context FAULTED with the status. -/
def Wk.deliverTakeReply (w : Wk) (f : Flit) : Wk :=
  let q := fld (f.word 0) 33 30
  let st : Status := BitVec.ofNat 16 (fld (f.word 1) 47 32)
  if w.c.stale.contains (f.staleKey 8) then w.onCore (fun c => { c with stale := c.stale.erase (f.staleKey 8) })
  else match w.c.awaiting q 0x13 with
  | none => w
  | some e =>
    w.endHead e q (if st = St.OK then .done (w.setS e.ctx (fld e.word 16 13) (BitVec.ofNat 32 (fld (f.word 1) 31 0)))
      else .refuse (w.semErr (fld e.word 34 33) st) st)

/-! ### Timeouts of waits (R275) -/

/-- Has the local wait of an entry run out in this cycle? Its T cycles count from the cycle in which it reached the head. -/
def QEntry.waitOver (e : QEntry) (cyc : Nat) : Bool :=
  opc e.word == 0x11 && fld e.word 54 53 == 0 && decide (0 < e.done) && (match e.headAt with
    | some t => decide (t + e.done ≤ cyc)
    | none => false)

/-- SEM_WAIT_TIMEOUT (R275, R276): a grant of the same cycle wins; what still waits then ends with SEM_TIMEOUT. -/
def Wk.waitTimeout (w : Wk) (p : WaitPlace) : Wk :=
  match p with
  | .remote i => w.pump.serveRWaits.expireRWait i
  | .queue q =>
    let w := w.pump
    match (if q.val = 0 then w.c.sync0 else (w.c.queue q).head?) with
    | none => w
    | some e =>
      if e.waitOver w.env.cyc then
        let w := w.bump 0xD20C 1
        w.endHead e q (w.endWait e ((w.c.semPhys e.ctx (fld e.word 34 29)).getD 0) St.SEM_TIMEOUT)
      else w

/-! ### Injection and shapers (R211, R220, R221) -/

/-- FLIT_ADMIT (R211, R221): one flit of a core admitted, under the Hallway shaper its router holds. -/
def Die.flitAdmit (d : Die) (c : CoreCode) : Die := d.atCore c (fun w => w.admitFlits ((d.router c.toNat).reg 0x5000) (d.router c.toNat).shaper)

/-- SHAPER_WRITE (R220): the register takes the value and the bucket is full. -/
def Die.shaperWrite (d : Die) (p : ShaperPlace) (v : Word) : Die :=
  match p with
  | .endpoint c e => d.atCore c (fun w => (w.epWrite e 2 v).1)
  | .channel c ch => d.atCore c (fun w => (w.chResWrite ch v).1)
  | .hallway c => if isCore c.toNat then d.writeRouter c.toNat 0x5000 v else d
  | .transit m =>
    if d.anyBusy then d.porchErr 0 2 m St.CTX_STATE
    else if d.modState m = 0 then d
    else
      let d := (d.storePlain (modOff m 2) v).siteStale
      d.modMod m (fun x => { x with shaper := Shaper.fill (d.reg (modOff m 2)) d.cyc })

/-! ### The site description (R438, R440) -/

/-- The n-th register whose write SITE_REGISTER_WRITE is: those of R438, CEL_TS_ADJ among them, in ascending address. -/
def siteRow (n : Nat) : Nat := nth 0x80000 siteRegs n

end Sys2Proof.Machine
end

