-- ==== Sys2Proof/Machine/ExecBoot.lean ====
section
/-! DEFINITION. The meanings of the commands of reset and bring-up (R417 to R440, R534 to R542). -/

namespace Sys2Proof.Machine

/-- PORST_RELEASE (R417, R426). -/
def execPorstRelease (f : Fuses) (sramOk : Bool) (fmode : Fin 4) (aonv : Bool) (s : State) : Host.Outcome State Fault Refusal :=
  s.onDie (fun d => d.porstRelease f sramOk fmode aonv)

/-- PORST_ASSERT (R542). -/
def execPorstAssert (s : State) : Host.Outcome State Fault Refusal :=
  .next s.porst

/-- REFERENCE_PRESENT (R417). -/
def execReferencePresent (present : Bool) (s : State) : Host.Outcome State Fault Refusal :=
  s.live (fun d => d.reference present)

/-- FLASH_IMAGE_READ (R420 to R425). -/
def execFlashImageRead (f : FlashDev) (s : State) : Host.Outcome State Fault Refusal :=
  s.live (fun d => d.flashRead f)

/-- POWER_GOOD_RISE (R539). -/
def execPowerGoodRise (s : State) : Host.Outcome State Fault Refusal :=
  s.live (fun d => d.powerGood)

/-- POWER_GOOD_FALL (R541). -/
def execPowerGoodFall (rail : Fin 6) (s : State) : Host.Outcome State Fault Refusal :=
  .next (s.railFall rail)

/-- SELF_TEST (R428). -/
def execSelfTest (finds : List Finding) (fatal : Bool) (s : State) : Host.Outcome State Fault Refusal :=
  s.live (fun d => d.selfTest finds fatal)

/-- REPAIR (R431). -/
def execRepair (s : State) : Host.Outcome State Fault Refusal :=
  s.live (fun d => d.repair)

/-- LINK_TRAINING (R433). -/
def execLinkTraining (s : State) : Host.Outcome State Fault Refusal :=
  s.live (fun d => d.linkTraining)

/-- CORE_FIRMWARE (R435). -/
def execCoreFirmware (s : State) : Host.Outcome State Fault Refusal :=
  s.live (fun d => d.coreFirmware)

/-- FIRMWARE_CHECK (R436). -/
def execFirmwareCheck (s : State) : Host.Outcome State Fault Refusal :=
  s.live (fun d => d.firmwareCheck)

/-- SITE_COMMIT (R439). -/
def execSiteCommit (q : Req) (v : Word) (s : State) : Host.Outcome State Fault Refusal :=
  s.port q 0x140034 (fun d => let x := d.siteCommit v; (x.1, some x.2))

/-- SITE_REGISTER_WRITE (R440). -/
def execSiteRegisterWrite (q : Req) (n : Nat) (v : Word) (s : State) : Host.Outcome State Fault Refusal :=
  s.port q (siteRow n) (fun d => d.writeDie q (siteRow n) v [] false)

/-- POWER_GOOD_TIMEOUT (R539). -/
def execPowerGoodTimeout (s : State) : Host.Outcome State Fault Refusal :=
  s.live (fun d => d.powerGoodLate)

/-- PG_AON_ASSERTION (R534). -/
def execPgAonAssertion (s : State) : Host.Outcome State Fault Refusal :=
  s.onDie Die.pgAon

end Sys2Proof.Machine
end

