-- ==== Sys2Proof/Machine/ExecDebug.lean ====
section
/-! DEFINITION. The meanings of the commands of debug (R506 to R509). -/

namespace Sys2Proof.Machine

/-- DBG_HALT (R506). -/
def execDbgHalt (c : CoreCode) (s : State) : Host.Outcome State Fault Refusal :=
  s.onCore c (fun w => w.dbgHalt 0)

/-- DEBUG_HALT_EFFECT (R506). -/
def execDebugHaltEffect (c : CoreCode) (s : State) : Host.Outcome State Fault Refusal :=
  s.onCore c (fun w => w.haltEffect)

/-- DBG_STEP (R507). -/
def execDbgStep (c : CoreCode) (s : State) : Host.Outcome State Fault Refusal :=
  s.onCore c (fun w => w.dbgStep)

/-- DBG_RESUME (R506, R507). -/
def execDbgResume (c : CoreCode) (s : State) : Host.Outcome State Fault Refusal :=
  s.onCore c (fun w => w.dbgResume)

/-- HALTALL (R508). -/
def execHaltAll (s : State) : Host.Outcome State Fault Refusal :=
  s.inMesh (fun d => d.haltAll)

/-- RESUMEALL (R508). -/
def execResumeAll (s : State) : Host.Outcome State Fault Refusal :=
  s.inMesh (fun d => d.resumeAll)

end Sys2Proof.Machine
end

