-- ==== Sys2Proof/Machine/ExecDma.lean ====
section
/-! DEFINITION. The meanings of the commands of the DMA agent (R240 to R269). -/

namespace Sys2Proof.Machine

/-- DDEF (R252). -/
def execDdef (c : CoreCode) (s : State) : Host.Outcome State Fault Refusal :=
  s.onCore c (fun w => w.issueEngine 0x18)

/-- DGO (R260). -/
def execDgo (c : CoreCode) (s : State) : Host.Outcome State Fault Refusal :=
  s.onCore c (fun w => w.issueEngine 0x19)

/-- DMA_REQUEST_ADMIT (R245). -/
def execDmaRequestAdmit (c : CoreCode) (ch : Fin 4) (s : State) : Host.Outcome State Fault Refusal :=
  s.onCore c (fun w => w.admitDma ch)

/-- DMA_READ_RESPONSE (R264). -/
def execDmaReadResponse (c : CoreCode) (s : State) : Host.Outcome State Fault Refusal :=
  s.onCore c (fun w => w.dmaReadResponse)

/-- DMA_WRITE_ACK (R242). -/
def execDmaWriteAck (c : CoreCode) (s : State) : Host.Outcome State Fault Refusal :=
  s.onCore c (fun w => w.dmaWriteAck)

/-- DGO_COMPLETE (R242). -/
def execDgoComplete (c : CoreCode) (ch : Fin 4) (s : State) : Host.Outcome State Fault Refusal :=
  s.onCore c (fun w => w.completeRun ch)

/-- DESCRIPTOR_WORD0_WRITE (R252). -/
def execDescriptorWord0Write (c : CoreCode) (ctx : Fin 4) (slot : Fin 16) (v : Word) (s : State) : Host.Outcome State Fault Refusal :=
  s.onCore c (fun w => (w.descWord0 ctx slot v).1)

/-- DESCRIPTOR_WORD_WRITE (R254). -/
def execDescriptorWordWrite (c : CoreCode) (ctx : Fin 4) (slot : Fin 16) (k : Fin 63) (v : Word) (s : State) : Host.Outcome State Fault Refusal :=
  s.onCore c (fun w => (w.descWord ctx slot (k.val + 1) v).1)

/-- RANGE_ENTRY_WRITE (R244). -/
def execRangeEntryWrite (c : CoreCode) (ctx : Fin 4) (k : Fin 8) (r : Fin 4) (v : Word) (s : State) : Host.Outcome State Fault Refusal :=
  s.onCore c (fun w => (w.rangeWrite ctx k r v).1)

end Sys2Proof.Machine
end

