-- ==== Sys2Proof/Machine/ExecJob.lean ====
section
/-! DEFINITION. The meanings of the commands of loads, the Doorlatch and job control (R441 to R465). -/

namespace Sys2Proof.Machine

/-- LOAD_GO (R441). -/
def execLoadGo (q : Req) (v : Word) (s : State) : Host.Outcome State Fault Refusal :=
  s.port q 0x18000C (fun d => let x := d.loadGo v; (x.1, some x.2))

/-- LOAD_READ_DONE (R442). -/
def execLoadReadDone (st : Status) (img : List Word) (s : State) : Host.Outcome State Fault Refusal :=
  s.inMesh (fun d => d.loadRead st img)

/-- DL_ACQUIRE (R453, R455). -/
def execDlAcquire (q : Req) (wait : Bool) (wto : BitVec 8) (lease : BitVec 20) (s : State) : Host.Outcome State Fault Refusal :=
  s.port q 0x1C0000 (fun d => d.dlAcquire q wait wto.toNat lease.toNat)

/-- DL_RENEW (R453). -/
def execDlRenew (q : Req) (lease : BitVec 20) (s : State) : Host.Outcome State Fault Refusal :=
  s.port q 0x1C0000 (fun d => d.dlRenew q lease.toNat)

/-- DL_RELEASE (R453). -/
def execDlRelease (q : Req) (s : State) : Host.Outcome State Fault Refusal :=
  s.port q 0x1C0000 (fun d => d.dlRelease q)

/-- DL_REINIT (R453). -/
def execDlReinit (q : Req) (s : State) : Host.Outcome State Fault Refusal :=
  s.port q 0x1C0000 (fun d => d.dlReinit q)

/-- LEASE_EXPIRY (R454). -/
def execLeaseExpiry (s : State) : Host.Outcome State Fault Refusal :=
  s.live (fun d => d.leaseExpiry)

/-- WAITER_TIMEOUT (R455). -/
def execWaiterTimeout (s : State) : Host.Outcome State Fault Refusal :=
  s.live (fun d => d.waiterTimeout)

/-- JOB_START (R459). -/
def execJobStart (q : Req) (lines : List (BitVec 512)) (bad : Bool) (s : State) : Host.Outcome State Fault Refusal :=
  s.port q 0x1C0040 (fun d => d.jobStart q.port (some q) lines bad)

/-- JOB_PAUSE (R460). -/
def execJobPause (q : Req) (s : State) : Host.Outcome State Fault Refusal :=
  s.port q 0x1C0040 (fun d => let x := d.jobPause q.port; (x.1, some x.2))

/-- JOB_RESUME (R460). -/
def execJobResume (q : Req) (s : State) : Host.Outcome State Fault Refusal :=
  s.port q 0x1C0040 (fun d => let x := d.jobResume q.port; (x.1, some x.2))

/-- JOB_KILL (R461). -/
def execJobKill (q : Req) (s : State) : Host.Outcome State Fault Refusal :=
  s.port q 0x1C0040 (fun d => let x := d.jobKill q.port; (x.1, some x.2))

/-- JOB_UNLOAD (R463). -/
def execJobUnload (q : Req) (s : State) : Host.Outcome State Fault Refusal :=
  s.port q 0x1C0040 (fun d => let x := d.jobUnload q.port; (x.1, some x.2))

/-- JOB_SCRUB (R465). -/
def execJobScrub (q : Req) (s : State) : Host.Outcome State Fault Refusal :=
  s.port q 0x1C0040 (fun d => let x := d.jobScrub q.port; (x.1, some x.2))

/-- SCRUB_COMPLETE (R463). -/
def execScrubComplete (s : State) : Host.Outcome State Fault Refusal :=
  s.live (fun d => d.scrubDone)

end Sys2Proof.Machine
end

