-- ==== Sys2Proof/Machine/ExecLinks.lean ====
section
/-! DEFINITION. The meanings of the commands of link modules, hubs and long-reach connections (R311 to R341). -/

namespace Sys2Proof.Machine

/-- MODULE_TRAINING (R314). -/
def execModuleTraining (m : Fin 48) (ok : Nat) (repTx : Fin 16) (repRx : Fin 16) (s : State) : Host.Outcome State Fault Refusal :=
  s.inMesh (fun d => d.train m ok repTx repRx)

/-- MODULE_EN_WRITE (R315). -/
def execModuleEnWrite (m : Fin 48) (v : Word) (s : State) : Host.Outcome State Fault Refusal :=
  s.inMesh (fun d => d.modEnCmd m v)

/-- RETRAIN (R322). -/
def execRetrain (m : Fin 48) (s : State) : Host.Outcome State Fault Refusal :=
  s.inMesh (fun d => d.retrain m)

/-- RETRAIN_COMPLETE (R322). -/
def execRetrainComplete (m : Fin 48) (fit : Option Fit) (s : State) : Host.Outcome State Fault Refusal :=
  s.inMesh (fun d => d.retrainDone m fit)

/-- LINK_FLIT_SEND (R320). -/
def execLinkFlitSend (m : Fin 48) (s : State) : Host.Outcome State Fault Refusal :=
  s.inMesh (fun d => d.linkSend m)

/-- NULL_FLIT_SEND (R323). -/
def execNullFlitSend (m : Fin 48) (s : State) : Host.Outcome State Fault Refusal :=
  s.inMesh (fun d => d.nullSend m)

/-- LINK_FLIT_RECEIVE (R319). -/
def execLinkFlitReceive (m : Fin 48) (raw : BitVec 768) (s : State) : Host.Outcome State Fault Refusal :=
  s.inMesh (fun d => d.linkReceive m raw)

/-- TRANSIT_ADMIT (R328). -/
def execTransitAdmit (m : Fin 48) (s : State) : Host.Outcome State Fault Refusal :=
  s.inMesh (fun d => d.transitAdmit m)

/-- REPLAY_REQUEST (R321). -/
def execReplayRequest (m : Fin 48) (s : State) : Host.Outcome State Fault Refusal :=
  s.inMesh (fun d => d.replayRequest m)

/-- REPLAY_TIMEOUT (R321). -/
def execReplayTimeout (m : Fin 48) (s : State) : Host.Outcome State Fault Refusal :=
  s.inMesh (fun d => d.replayTimeout m)

/-- DIE_ADDR_WRITE (R325). -/
def execDieAddrWrite (v : Word) (s : State) : Host.Outcome State Fault Refusal :=
  s.inMesh (fun d => d.dieAddrCmd v)

/-- HUB_RESPONSE (R331). -/
def execHubResponse (m : Fin 48) (s : State) : Host.Outcome State Fault Refusal :=
  s.inMesh (fun d => d.hubResponse m)

/-- HUB_TIMEOUT (R333). -/
def execHubTimeout (n : Nat) (s : State) : Host.Outcome State Fault Refusal :=
  s.inMesh (fun d => d.hubTimeout n)

/-- CONNECTION_ENABLE (R334). -/
def execConnectionEnable (k : Fin 64) (v : Word) (s : State) : Host.Outcome State Fault Refusal :=
  s.inMesh (fun d => d.connEnableCmd k v)

/-- TRANSPORT_PACKET_RECEIVE (R336). -/
def execTransportPacketReceive (k : Fin 64) (s : State) : Host.Outcome State Fault Refusal :=
  s.inMesh (fun d => d.packetReceive k)

/-- TRANSPORT_ACK_TIMER (R336). -/
def execTransportAckTimer (k : Fin 64) (s : State) : Host.Outcome State Fault Refusal :=
  s.inMesh (fun d => d.ackTimer k)

/-- TRANSPORT_RETRANSMIT_TIMEOUT (R336). -/
def execTransportRetransmitTimeout (k : Fin 64) (s : State) : Host.Outcome State Fault Refusal :=
  s.inMesh (fun d => d.retransmit k)

/-- PEER_PHY_RETRAIN (R311). -/
def execPeerPhyRetrain (m : Fin 48) (s : State) : Host.Outcome State Fault Refusal :=
  s.inMesh (fun d => d.retrain m)

/-- IDLE_FLIT_SEND (R318). -/
def execIdleFlitSend (m : Fin 48) (s : State) : Host.Outcome State Fault Refusal :=
  s.inMesh (fun d => d.idleSend m)

end Sys2Proof.Machine
end

