-- ==== Sys2Proof/Machine/ExecMatrix.lean ====
section
/-! DEFINITION. The meanings of the commands of the matrix unit and the vector path (R85 to R118). -/

namespace Sys2Proof.Machine

/-- MXM (R97). -/
def execMxm (c : CoreCode) (s : State) : Host.Outcome State Fault Refusal :=
  s.onCore c (fun w => w.issueEngine 0x20)

/-- ARRAY_OPERATION (R109). -/
def execArrayOperation (c : CoreCode) (s : State) : Host.Outcome State Fault Refusal :=
  s.onCore c (fun w => w.arrayOperation)

/-- RAMP_PERIOD_END (R114). -/
def execRampPeriodEnd (c : CoreCode) (u : Fin 2) (s : State) : Host.Outcome State Fault Refusal :=
  s.onCore c (fun w => w.rampPeriodEnd u)

/-- MXCFG (R89). -/
def execMxcfg (c : CoreCode) (s : State) : Host.Outcome State Fault Refusal :=
  s.onCore c (fun w => w.issueEngine 0x21)

/-- MXB (R94). -/
def execMxb (c : CoreCode) (s : State) : Host.Outcome State Fault Refusal :=
  s.onCore c (fun w => w.issueEngine 0x22)

/-- MXSC (R93). -/
def execMxsc (c : CoreCode) (s : State) : Host.Outcome State Fault Refusal :=
  s.onCore c (fun w => w.issueEngine 0x23)

/-- MXLD (R102). -/
def execMxld (c : CoreCode) (s : State) : Host.Outcome State Fault Refusal :=
  s.onCore c (fun w => w.issueEngine 0x24)

/-- MXD (R103). -/
def execMxd (c : CoreCode) (s : State) : Host.Outcome State Fault Refusal :=
  s.onCore c (fun w => w.issueEngine 0x25)

/-- MXEW (R105). -/
def execMxew (c : CoreCode) (s : State) : Host.Outcome State Fault Refusal :=
  s.onCore c (fun w => w.issueEngine 0x26)

/-- MVX (R106). -/
def execMvx (c : CoreCode) (s : State) : Host.Outcome State Fault Refusal :=
  s.onCore c (fun w => w.issueEngine 0x28)

/-- MVCFG (R89). -/
def execMvcfg (c : CoreCode) (s : State) : Host.Outcome State Fault Refusal :=
  s.onCore c (fun w => w.issueEngine 0x29)

/-- MVM (R107). -/
def execMvm (c : CoreCode) (s : State) : Host.Outcome State Fault Refusal :=
  s.onCore c (fun w => w.issueEngine 0x2A)

end Sys2Proof.Machine
end

