-- ==== Sys2Proof/Machine/ExecMemory.lean ====
section
/-! DEFINITION. The meanings of the commands of the core memories, handles, windows and Annex mode (R143 to R169, R480). -/

namespace Sys2Proof.Machine

/-- REMOTE_ACCESS (R157, R158). -/
def execRemoteAccess (c : CoreCode) (s : State) : Host.Outcome State Fault Refusal :=
  s.onCore c (fun w => w.serveRemote)

/-- CE_WRITE_BACK (R163). -/
def execCeWriteBack (c : CoreCode) (s : State) : Host.Outcome State Fault Refusal :=
  s.onCore c (fun w => w.ceWriteBack)

/-- PATROL_READ (R166). -/
def execPatrolRead (c : CoreCode) (m : Fin 3) (s : State) : Host.Outcome State Fault Refusal :=
  s.onCore c (fun w => w.patrolRead m)

/-- BANK_POWER_WRITE (R161). -/
def execBankPowerWrite (c : CoreCode) (m : Fin 3) (v : Word) (s : State) : Host.Outcome State Fault Refusal :=
  s.onCore c (fun w => w.bankPower m v)

/-- BANK_WAKE_DONE (R161). -/
def execBankWakeDone (c : CoreCode) (m : Fin 3) (b : Fin 16) (s : State) : Host.Outcome State Fault Refusal :=
  s.onCore c (fun w => w.bankWakeDone m b)

/-- BANK_OFF_DONE (R160, R161). -/
def execBankOffDone (c : CoreCode) (m : Fin 3) (b : Fin 16) (s : State) : Host.Outcome State Fault Refusal :=
  s.onCore c (fun w => w.bankOffDone m b)

/-- HANDLE_WRITE (R153, R254). -/
def execHandleWrite (c : CoreCode) (ctx : Fin 4) (h : Fin 16) (hi : Bool) (v : Word) (s : State) : Host.Outcome State Fault Refusal :=
  s.onCore c (fun w => (w.handleWrite ctx h hi v).1)

/-- WINDOW_WRITE (R159). -/
def execWindowWrite (c : CoreCode) (k : Fin 8) (r : Fin 3) (v : Word) (s : State) : Host.Outcome State Fault Refusal :=
  s.onCore c (fun w => (w.windowWrite k r v).1)

/-- ANNEX_CTL_WRITE (R480). -/
def execAnnexCtlWrite (c : CoreCode) (v : Word) (s : State) : Host.Outcome State Fault Refusal :=
  s.onCore c (fun w => (w.annexWrite v).1)

end Sys2Proof.Machine
end

