-- ==== Sys2Proof/Machine/ExecMgmt.lean ====
section
/-! DEFINITION. The meanings of the commands of the management bus, the fault log and the test access port (R472, R473, R494, R499, R504, R505, R545). -/

namespace Sys2Proof.Machine

/-- TELEMETRY_INDEX_WRITE (R473, R505). -/
def execTelemetryIndexWrite (n : BitVec 16) (s : State) : Host.Outcome State Fault Refusal :=
  .next (s.teleIndex n)

/-- TELEMETRY_READ (R473, R504, R505). -/
def execTelemetryRead (n : BitVec 8) (s : State) : Host.Outcome State Fault Refusal :=
  .next (s.teleRead n.toNat)

/-- EPO_ARM (R473). -/
def execEpoArm (data : Byte) (s : State) : Host.Outcome State Fault Refusal :=
  .next (s.epoArm data)

/-- EPO_FIRE (R408, R473). -/
def execEpoFire (data : Byte) (s : State) : Host.Outcome State Fault Refusal :=
  .next (s.epoFire data)

/-- EPO_ARM_EXPIRY (R473). -/
def execEpoArmExpiry (s : State) : Host.Outcome State Fault Refusal :=
  .next (s.epoExpiry)

/-- ENTDAA (R472). -/
def execEntdaa (a : BitVec 7) (s : State) : Host.Outcome State Fault Refusal :=
  .next (s.entdaa a)

/-- SETDASA (R472). -/
def execSetdasa (a : BitVec 7) (s : State) : Host.Outcome State Fault Refusal :=
  .next (s.setdasa a)

/-- SETNEWDA (R472). -/
def execSetnewda (a : BitVec 7) (s : State) : Host.Outcome State Fault Refusal :=
  .next (s.setnewda a)

/-- RSTDAA (R472). -/
def execRstdaa (s : State) : Host.Outcome State Fault Refusal :=
  .next (s.rstdaa)

/-- GETPID (R472). -/
def execGetpid (s : State) : Host.Outcome State Fault Refusal :=
  .next (s.getPid)

/-- GETBCR (R472). -/
def execGetbcr (s : State) : Host.Outcome State Fault Refusal :=
  .next (s.getBcr)

/-- GETDCR (R472). -/
def execGetdcr (s : State) : Host.Outcome State Fault Refusal :=
  .next (s.getDcr)

/-- GETSTATUS (R472). -/
def execGetstatus (s : State) : Host.Outcome State Fault Refusal :=
  .next (s.getStatus)

/-- FAULT_LOG_WRITE (R494). -/
def execFaultLogWrite (s : State) : Host.Outcome State Fault Refusal :=
  s.live (fun d => d.logWrite)

/-- CE_STORM (R499). -/
def execCeStorm (c : CoreCode) (s : State) : Host.Outcome State Fault Refusal :=
  s.live (fun d => d.ceStorm c)

/-- TAP_RESET (R542). -/
def execTapReset (s : State) : Host.Outcome State Fault Refusal :=
  .next (s.tapReset)

/-- EXTEST (R545, R546). -/
def execExtest (bumps : List Bool) (cells : List Bool) (s : State) : Host.Outcome State Fault Refusal :=
  .next (s.extest bumps cells)

/-- SAMPLE_PRELOAD (R545). -/
def execSamplePreload (bumps : List Bool) (cells : List Bool) (s : State) : Host.Outcome State Fault Refusal :=
  .next (s.samplePreload bumps cells)

/-- IDCODE (R545). -/
def execIdcode (s : State) : Host.Outcome State Fault Refusal :=
  .next (s.idcode)

/-- BYPASS (R545). -/
def execBypass (s : State) : Host.Outcome State Fault Refusal :=
  .next (s.bypass)

end Sys2Proof.Machine
end

