-- ==== Sys2Proof/Machine/ExecPorts.lean ====
section
/-! DEFINITION. The meanings of the commands of register and Service commands (R15 to R19, R500 to R503). -/

namespace Sys2Proof.Machine

/-- REGISTER_WRITE (R15, R16). -/
def execRegisterWrite (q : Req) (v : Word) (s : State) : Host.Outcome State Fault Refusal :=
  s.live (fun d => d.registerWrite q v)

/-- RC_READ (R17). -/
def execRcRead (q : Req) (s : State) : Host.Outcome State Fault Refusal :=
  s.live (fun d => d.rcRead q)

/-- LOW_WORD_READ (R19). -/
def execLowWordRead (q : Req) (s : State) : Host.Outcome State Fault Refusal :=
  s.live (fun d => d.lowWordRead q)

/-- READ32 (R501, R502). -/
def execRead32 (q : Req) (s : State) : Host.Outcome State Fault Refusal :=
  s.live (fun d => d.doRead q)

/-- WRITE32 (R501, R502). -/
def execWrite32 (q : Req) (v : Word) (lines : List (BitVec 512)) (bad : Bool) (s : State) : Host.Outcome State Fault Refusal :=
  s.live (fun d => d.write32Cmd q v lines bad)

/-- LINE_READ (R501). -/
def execLineRead (q : Req) (nl : Fin 8) (s : State) : Host.Outcome State Fault Refusal :=
  s.live (fun d => d.doLineRead q (nl.val + 1))

/-- LINE_WRITE (R501). -/
def execLineWrite (q : Req) (lines : List (List (BitVec 64))) (enables : List (BitVec 64)) (s : State) : Host.Outcome State Fault Refusal :=
  s.live (fun d => d.doLineWrite q lines enables)

/-- LINE_WRITE_BITS (R501). -/
def execLineWriteBits (q : Req) (lines : List (List (BitVec 64))) (enables : List (List (BitVec 64))) (s : State) : Host.Outcome State Fault Refusal :=
  s.live (fun d => d.doLineBits q lines enables)

end Sys2Proof.Machine
end

