-- ==== Sys2Proof/Machine/ExecSeq.lean ====
section
/-! DEFINITION. The meanings of the commands of the sequencer, contexts and units (R170 to R203). -/

namespace Sys2Proof.Machine

/-- RESERVED_OPCODE (R173, R179). -/
def execReservedOpcode (c : CoreCode) (s : State) : Host.Outcome State Fault Refusal :=
  s.onCore c (fun w => w.issueReserved)

/-- NOP (R180). -/
def execNop (c : CoreCode) (s : State) : Host.Outcome State Fault Refusal :=
  s.onCore c (fun w => w.issue 0x00 (fun w ctx pc _ => w.fallThrough ctx pc id))

/-- END (R184, R191). -/
def execEndInstr (c : CoreCode) (s : State) : Host.Outcome State Fault Refusal :=
  s.onCore c (fun w => w.issue 0x01 Wk.seqEnd)

/-- SALU (R181). -/
def execSalu (c : CoreCode) (s : State) : Host.Outcome State Fault Refusal :=
  s.onCore c (fun w => w.issue 0x02 Wk.seqSalu)

/-- SALI (R181). -/
def execSali (c : CoreCode) (s : State) : Host.Outcome State Fault Refusal :=
  s.onCore c (fun w => w.issue 0x03 Wk.seqSali)

/-- LOOP (R184, R186). -/
def execLoop (c : CoreCode) (s : State) : Host.Outcome State Fault Refusal :=
  s.onCore c (fun w => w.issue 0x05 Wk.seqLoop)

/-- LCTL (R180). -/
def execLctl (c : CoreCode) (s : State) : Host.Outcome State Fault Refusal :=
  s.onCore c (fun w => w.issue 0x06 Wk.seqLctl)

/-- BRC (R181, R185). -/
def execBrc (c : CoreCode) (s : State) : Host.Outcome State Fault Refusal :=
  s.onCore c (fun w => w.issue 0x07 Wk.seqBrc)

/-- PRED (R182). -/
def execPred (c : CoreCode) (s : State) : Host.Outcome State Fault Refusal :=
  s.onCore c (fun w => w.issue 0x08 Wk.seqPred)

/-- SHAPE (R195). -/
def execShape (c : CoreCode) (s : State) : Host.Outcome State Fault Refusal :=
  s.onCore c (fun w => w.issue 0x09 Wk.seqShape)

/-- SHP (R194). -/
def execShp (c : CoreCode) (s : State) : Host.Outcome State Fault Refusal :=
  s.onCore c (fun w => w.issue 0x0A Wk.seqShp)

/-- SRD (R183). -/
def execSrd (c : CoreCode) (s : State) : Host.Outcome State Fault Refusal :=
  s.onCore c (fun w => w.issue 0x0B Wk.seqSrd)

/-- CTXSW (R192). -/
def execCtxsw (c : CoreCode) (s : State) : Host.Outcome State Fault Refusal :=
  s.onCore c (fun w => w.issue 0x0D Wk.seqCtxsw)

/-- FIRING_BLOCK_FIRE (R188, R551). -/
def execFiringBlockFire (c : CoreCode) (s : State) : Host.Outcome State Fault Refusal :=
  s.onCore c (fun w => w.fire)

/-- FB_TIMEOUT (R189). -/
def execFbTimeout (c : CoreCode) (b : Fin 16) (s : State) : Host.Outcome State Fault Refusal :=
  s.onCore c (fun w => w.fbTimeout b)

/-- CTX_LOADED (R191). -/
def execCtxLoaded (c : CoreCode) (ctx : Fin 4) (s : State) : Host.Outcome State Fault Refusal :=
  s.onCore c (fun w => w.ctxLoaded ctx)

/-- CTX_START (R191). -/
def execCtxStart (c : CoreCode) (ctx : Fin 4) (s : State) : Host.Outcome State Fault Refusal :=
  s.onCore c (fun w => w.ctxStart ctx)

/-- CTX_STOP (R191). -/
def execCtxStop (c : CoreCode) (ctx : Fin 4) (s : State) : Host.Outcome State Fault Refusal :=
  s.onCore c (fun w => w.ctxStop ctx)

/-- CTX_CLEAR (R191). -/
def execCtxClear (c : CoreCode) (ctx : Fin 4) (s : State) : Host.Outcome State Fault Refusal :=
  s.onCore c (fun w => w.ctxClear ctx)

/-- CONTEXT_STOPPED (R191). -/
def execContextStopped (c : CoreCode) (ctx : Fin 4) (s : State) : Host.Outcome State Fault Refusal :=
  s.onCore c (fun w => w.ctxStopped ctx)

/-- SEQ_SWITCH (R192). -/
def execSeqSwitch (c : CoreCode) (t : Fin 4) (s : State) : Host.Outcome State Fault Refusal :=
  s.onCore c (fun w => w.seqSwitch t)

/-- SWITCH_DRAINED (R192). -/
def execSwitchDrained (c : CoreCode) (cycles : Nat) (s : State) : Host.Outcome State Fault Refusal :=
  s.onCore c (fun w => w.switchDrained cycles)

/-- UNIT_DRAIN (R199). -/
def execUnitDrain (c : CoreCode) (u : Fin 5) (s : State) : Host.Outcome State Fault Refusal :=
  s.onCore c (fun w => w.unitDrain u)

/-- UNIT_DRAINED (R199). -/
def execUnitDrained (c : CoreCode) (u : Fin 5) (s : State) : Host.Outcome State Fault Refusal :=
  s.onCore c (fun w => w.unitDrained u)

/-- UNIT_FORCE (R200). -/
def execUnitForce (c : CoreCode) (u : Fin 5) (s : State) : Host.Outcome State Fault Refusal :=
  s.onCore c (fun w => w.unitForce u)

/-- UNIT_REEN (R201). -/
def execUnitReen (c : CoreCode) (u : Fin 5) (s : State) : Host.Outcome State Fault Refusal :=
  s.onCore c (fun w => w.unitReen u)

end Sys2Proof.Machine
end

