-- ==== Sys2Proof/Machine/ExecSpan.lean ====
section
/-! DEFINITION. The meanings of the commands of spans, rollback and stops (R342 to R379). -/

namespace Sys2Proof.Machine

/-- CORE_SPAN_ARRIVAL (R351). -/
def execCoreSpanArrival (c : CoreCode) (s : State) : Host.Outcome State Fault Refusal :=
  s.inMesh (fun d => if d.coreOn c.toNat then d.coreArrive c else d)

/-- SPAN_QUIET_EXPIRY (R352). -/
def execSpanQuietExpiry (c : CoreCode) (s : State) : Host.Outcome State Fault Refusal :=
  s.inMesh (fun d => if d.coreOn c.toNat then d.spanQuiet c else d)

/-- SPAN_WDOG_EXPIRY (R352). -/
def execSpanWdogExpiry (s : State) : Host.Outcome State Fault Refusal :=
  s.inMesh (fun d => d.spanWdog)

/-- FENCE_ARRIVAL (R356). -/
def execFenceArrival (s : State) : Host.Outcome State Fault Refusal :=
  s.inMesh (fun d => d.fenceArrive)

/-- COMMIT_RELEASE (R358). -/
def execCommitRelease (s : State) : Host.Outcome State Fault Refusal :=
  s.inMesh (fun d => d.commit)

/-- GO_RELEASE (R358). -/
def execGoRelease (s : State) : Host.Outcome State Fault Refusal :=
  s.inMesh (fun d => d.goRelease)

/-- ROLLBACK_ENTER (R362). -/
def execRollbackEnter (s : State) : Host.Outcome State Fault Refusal :=
  s.inMesh (fun d => d.rollback)

/-- DRAIN_RELEASE (R362). -/
def execDrainRelease (lines : List (BitVec 512)) (bad : Bool) (s : State) : Host.Outcome State Fault Refusal :=
  s.inMesh (fun d => d.drainRelease lines bad)

/-- RESTORE_RELEASE (R362). -/
def execRestoreRelease (s : State) : Host.Outcome State Fault Refusal :=
  s.inMesh (fun d => d.restoreRelease)

/-- JOB_STOP (R375). -/
def execJobStop (m : Fin 48) (s : State) : Host.Outcome State Fault Refusal :=
  s.inMesh (fun d => d.jobStop m)

/-- MARK_REPLY (R366). -/
def execMarkReply (st : Nat) (s : State) : Host.Outcome State Fault Refusal :=
  s.inMesh (fun d => d.logAnswer 1 st [] false)

/-- HOLD_REPLY (R366). -/
def execHoldReply (st : Nat) (s : State) : Host.Outcome State Fault Refusal :=
  s.inMesh (fun d => d.logAnswer 2 st [] false)

/-- REWIND_REPLY (R366). -/
def execRewindReply (st : Nat) (lines : List (BitVec 512)) (bad : Bool) (s : State) : Host.Outcome State Fault Refusal :=
  s.inMesh (fun d => d.logAnswer 3 st lines bad)

/-- LOG_REPLY_TIMEOUT (R366). -/
def execLogReplyTimeout (lop : Fin 3) (s : State) : Host.Outcome State Fault Refusal :=
  s.inMesh (fun d => d.logLate (lop.val + 1))

/-- SPAN_STOP (R376). -/
def execSpanStop (q : Req) (s : State) : Host.Outcome State Fault Refusal :=
  s.port q 0xC0020 (fun d => (d.spanStop, some St.OK))

/-- SPAN_ROLL (R360). -/
def execSpanRoll (q : Req) (s : State) : Host.Outcome State Fault Refusal :=
  s.port q 0xC0020 (fun d => (d.spanRoll q.port, some St.OK))

/-- SPAN_FAIL (R368). -/
def execSpanFail (q : Req) (c : CoreCode) (s : State) : Host.Outcome State Fault Refusal :=
  s.port q 0xC0020 (fun d => (d.spanFail q.port c.toNat, some St.OK))

/-- SPAN_LATE (R361). -/
def execSpanLate (q : Req) (s : State) : Host.Outcome State Fault Refusal :=
  s.port q 0xC0020 (fun d => (d.spanLate, some St.OK))

end Sys2Proof.Machine
end

