-- ==== Sys2Proof/Machine/ExecSpdm.lean ====
section
/-! DEFINITION. The meanings of the commands of attestation (R466 to R471). -/

namespace Sys2Proof.Machine

/-- SPDM_REQUEST (R470, R471). -/
def execSpdmRequest (q : Req) (p : Fin 2) (v : Word) (s : State) : Host.Outcome State Fault Refusal :=
  s.port q (0x200200 + 16 * p.val) (fun d => d.spdmRequest q p v)

/-- GET_VERSION (R470). -/
def execGetVersion (p : Fin 2) (s : State) : Host.Outcome State Fault Refusal :=
  s.live (fun d => d.getVersion p)

/-- GET_CAPABILITIES (R470). -/
def execGetCapabilities (p : Fin 2) (s : State) : Host.Outcome State Fault Refusal :=
  s.live (fun d => d.getCapabilities p)

/-- NEGOTIATE_ALGORITHMS (R470). -/
def execNegotiateAlgorithms (p : Fin 2) (s : State) : Host.Outcome State Fault Refusal :=
  s.live (fun d => d.negotiate p)

/-- GET_DIGESTS (R470). -/
def execGetDigests (p : Fin 2) (s : State) : Host.Outcome State Fault Refusal :=
  s.live (fun d => d.getDigests p)

/-- GET_CERTIFICATE (R470). -/
def execGetCertificate (p : Fin 2) (s : State) : Host.Outcome State Fault Refusal :=
  s.live (fun d => d.getCertificate p)

/-- CHALLENGE (R470). -/
def execChallenge (p : Fin 2) (s : State) : Host.Outcome State Fault Refusal :=
  s.live (fun d => d.challenge p)

/-- GET_MEASUREMENTS (R470). -/
def execGetMeasurements (p : Fin 2) (s : State) : Host.Outcome State Fault Refusal :=
  s.live (fun d => d.getMeasurements p)

end Sys2Proof.Machine
end

