-- ==== Sys2Proof/Machine/ExecStream.lean ====
section
/-! DEFINITION. The meanings of the commands of streams, the mesh, steering and fill gates (R204 to R239, R302 to R310, R549). -/

namespace Sys2Proof.Machine

/-- SSEND (R217). -/
def execSsend (c : CoreCode) (s : State) : Host.Outcome State Fault Refusal :=
  s.onCore c (fun w => w.issueEngine 0x1C)

/-- SRECV (R218). -/
def execSrecv (c : CoreCode) (s : State) : Host.Outcome State Fault Refusal :=
  s.onCore c (fun w => w.issueEngine 0x1D)

/-- SSTAT (R218). -/
def execSstat (c : CoreCode) (s : State) : Host.Outcome State Fault Refusal :=
  s.onCore c (fun w => w.issueEngine 0x1E)

/-- FLIT_ADMIT (R211, R221). -/
def execFlitAdmit (c : CoreCode) (s : State) : Host.Outcome State Fault Refusal :=
  s.inMesh (fun d => d.flitAdmit c)

/-- ROUTER_HOP (R208). -/
def execRouterHop (c : CoreCode) (p : Fin 7) (s : State) : Host.Outcome State Fault Refusal :=
  s.inMesh (fun d => if isCore c.toNat then d.routerHop c.toNat p else d)

/-- VC2_AGED_GRANT (R209). -/
def execVc2AgedGrant (c : CoreCode) (o : Fin 7) (s : State) : Host.Outcome State Fault Refusal :=
  s.inMesh (fun d => if isCore c.toNat then d.agedGrant c.toNat o else d)

/-- REDUCTION_COMBINE (R227). -/
def execReductionCombine (c : CoreCode) (tree : Fin 64) (s : State) : Host.Outcome State Fault Refusal :=
  s.inMesh (fun d => if isCore c.toNat then d.combine c.toNat tree else d)

/-- FLIT_DELIVERY (R214). -/
def execFlitDelivery (c : CoreCode) (s : State) : Host.Outcome State Fault Refusal :=
  s.onCore c (fun w => w.flitDelivery)

/-- JOIN_WAIT_EXPIRY (R230). -/
def execJoinWaitExpiry (c : CoreCode) (ep : Fin 16) (s : State) : Host.Outcome State Fault Refusal :=
  s.onCore c (fun w => w.joinExpiry ep)

/-- ACK_RECEIVE (R219). -/
def execAckReceive (c : CoreCode) (s : State) : Host.Outcome State Fault Refusal :=
  s.onCore c (fun w => w.ackDelivery)

/-- STEER_FORWARD (R233). -/
def execSteerForward (c : CoreCode) (u : Fin 2) (s : State) : Host.Outcome State Fault Refusal :=
  s.onCore c (fun w => w.steerStep u)

/-- SHAPER_WRITE (R220). -/
def execShaperWrite (p : ShaperPlace) (v : Word) (s : State) : Host.Outcome State Fault Refusal :=
  s.inMesh (fun d => d.shaperWrite p v)

/-- CELLAR_PORT_FLIT (R549). -/
def execCellarPortFlit (s : State) : Host.Outcome State Fault Refusal :=
  s.inMesh (fun d => d.cellarFlit)

/-- GATE_CTL_WRITE (R305). -/
def execGateCtlWrite (c : CoreCode) (g : Fin 2) (v : Word) (s : State) : Host.Outcome State Fault Refusal :=
  s.onCore c (fun w => (w.gateWrite g 0 v).1)

/-- GATE_ROWS_RELEASE (R304). -/
def execGateRowsRelease (c : CoreCode) (g : Fin 2) (s : State) : Host.Outcome State Fault Refusal :=
  s.onCore c (fun w => w.gateRowsStep g)

/-- GATE_DEADLINE_RELEASE (R304). -/
def execGateDeadlineRelease (c : CoreCode) (g : Fin 2) (s : State) : Host.Outcome State Fault Refusal :=
  s.onCore c (fun w => w.gateDeadlineStep g)

end Sys2Proof.Machine
end

