-- ==== Sys2Proof/Machine/ExecSync.lean ====
section
/-! DEFINITION. The meanings of the commands of semaphores, work counters and barriers (R270 to R289). -/

namespace Sys2Proof.Machine

/-- SSIG (R272). -/
def execSsig (c : CoreCode) (s : State) : Host.Outcome State Fault Refusal :=
  s.onCore c (fun w => w.issueEngine 0x10)

/-- SWAIT (R275). -/
def execSwait (c : CoreCode) (s : State) : Host.Outcome State Fault Refusal :=
  s.onCore c (fun w => w.issueEngine 0x11)

/-- SEM_WAIT_TIMEOUT (R275). -/
def execSemWaitTimeout (c : CoreCode) (e : WaitPlace) (s : State) : Host.Outcome State Fault Refusal :=
  s.onCore c (fun w => w.waitTimeout e)

/-- SINIT (R273). -/
def execSinit (c : CoreCode) (s : State) : Host.Outcome State Fault Refusal :=
  s.onCore c (fun w => w.issueEngine 0x12)

/-- WTAKE (R279). -/
def execWtake (c : CoreCode) (s : State) : Host.Outcome State Fault Refusal :=
  s.onCore c (fun w => w.issueEngine 0x13)

/-- WSET (R279). -/
def execWset (c : CoreCode) (s : State) : Host.Outcome State Fault Refusal :=
  s.onCore c (fun w => w.issueEngine 0x14)

/-- SBAR (R283). -/
def execSbar (c : CoreCode) (s : State) : Host.Outcome State Fault Refusal :=
  s.onCore c (fun w => w.issueEngine 0x15)

/-- BARRIER_RELEASE (R283). -/
def execBarrierRelease (ch : Fin 31) (s : State) : Host.Outcome State Fault Refusal :=
  s.inMesh (fun d => d.barRelease ch)

/-- SIG (R277, R278). -/
def execSig (c : CoreCode) (s : State) : Host.Outcome State Fault Refusal :=
  s.onCore c (fun w => w.takeHall 1 Wk.deliverSig)

/-- WAIT (R278). -/
def execWait (c : CoreCode) (s : State) : Host.Outcome State Fault Refusal :=
  s.onCore c (fun w => w.takeHall 2 Wk.deliverWait)

/-- WAIT_REPLY (R277). -/
def execWaitReply (c : CoreCode) (s : State) : Host.Outcome State Fault Refusal :=
  s.onCore c (fun w => w.takeHall 3 Wk.deliverWaitReply)

/-- TAKE (R280). -/
def execTake (c : CoreCode) (s : State) : Host.Outcome State Fault Refusal :=
  s.onCore c (fun w => w.takeHall 4 Wk.deliverTake)

/-- TAKE_REPLY (R277). -/
def execTakeReply (c : CoreCode) (s : State) : Host.Outcome State Fault Refusal :=
  s.onCore c (fun w => w.takeHall 5 Wk.deliverTakeReply)

/-- SEM_MAP_WRITE (R270). -/
def execSemMapWrite (c : CoreCode) (ctx : Fin 4) (id : Fin 64) (v : Word) (s : State) : Host.Outcome State Fault Refusal :=
  s.onCore c (fun w => (w.semMapWrite ctx id v).1)

/-- SEM_VAL_WRITE (R273). -/
def execSemValWrite (c : CoreCode) (p : Fin 48) (v : Word) (rdie : DieAddr) (s : State) : Host.Outcome State Fault Refusal :=
  s.onCore c (fun w => (w.semValWrite p v rdie).1)

/-- BARRIER_CHANNEL_ENABLE (R287). -/
def execBarrierChannelEnable (ch : Fin 31) (v : Word) (s : State) : Host.Outcome State Fault Refusal :=
  s.inMesh (fun d => d.barEnableCmd ch v)

end Sys2Proof.Machine
end

