-- ==== Sys2Proof/Machine/ExecTherm.lean ====
section
/-! DEFINITION. The meanings of the commands of the Thermostat, clocks and shutdown (R380 to R416). -/

namespace Sys2Proof.Machine

/-- THERMOSTAT_CONTROL_POINT (R387). -/
def execThermostatControlPoint (s : State) : Host.Outcome State Fault Refusal :=
  s.inMesh (fun d => d.controlPoint)

/-- AVS_VOUT_ACK (R387, R388). -/
def execAvsVoutAck (ok : Bool) (s : State) : Host.Outcome State Fault Refusal :=
  s.live (fun d => d.avsAnswer ok)

/-- AVS_SETTLE_DONE (R387). -/
def execAvsSettleDone (s : State) : Host.Outcome State Fault Refusal :=
  s.live (fun d => d.settleDone)

/-- GLIDE_COMPLETE (R381). -/
def execGlideComplete (s : State) : Host.Outcome State Fault Refusal :=
  s.inMesh (fun d => d.glideDone)

/-- REGION_CTL_WRITE (R390). -/
def execRegionCtlWrite (v : Word) (s : State) : Host.Outcome State Fault Refusal :=
  s.inMesh (fun d => (d.regionCtl v).1)

/-- REGION_WAKE_COMPLETE (R390). -/
def execRegionWakeComplete (r : Fin 16) (s : State) : Host.Outcome State Fault Refusal :=
  s.inMesh (fun d => d.regionWoken r)

/-- REGION_SLEEP_COMPLETE (R391). -/
def execRegionSleepComplete (r : Fin 16) (s : State) : Host.Outcome State Fault Refusal :=
  s.inMesh (fun d => d.sleepDone r)

/-- ENVELOPE_INTERVAL (R397). -/
def execEnvelopeInterval (s : State) : Host.Outcome State Fault Refusal :=
  s.inMesh (fun d => d.envelope)

/-- POWER_STEP (R399). -/
def execPowerStep (s : State) : Host.Outcome State Fault Refusal :=
  s.inMesh (fun d => d.powerStep)

/-- LEARN_BIN (R404). -/
def execLearnBin (s : State) : Host.Outcome State Fault Refusal :=
  s.inMesh (fun d => d.learnBin)

/-- SENSOR_SAMPLE (R406). -/
def execSensorSample (readings : List (BitVec 16)) (s : State) : Host.Outcome State Fault Refusal :=
  s.inMesh (fun d => d.sample readings)

/-- THERMAL_TRIP (R407). -/
def execThermalTrip (sensor : Fin 36) (s : State) : Host.Outcome State Fault Refusal :=
  s.live (fun d => d.thermTrip sensor)

/-- SHUTDOWN_COMPLETE (R407). -/
def execShutdownComplete (s : State) : Host.Outcome State Fault Refusal :=
  s.live (fun d => d.shutDone)

/-- REFCLK_LOSS (R383). -/
def execRefclkLoss (s : State) : Host.Outcome State Fault Refusal :=
  s.live (fun d => d.refLoss)

/-- AON_LOSS (R384). -/
def execAonLoss (s : State) : Host.Outcome State Fault Refusal :=
  s.live (fun d => d.aonLoss)

/-- AON_RESTORE (R384). -/
def execAonRestore (s : State) : Host.Outcome State Fault Refusal :=
  s.live (fun d => d.aonRestore)

/-- AGEING_PERIOD (R413). -/
def execAgeingPeriod (slack : Nat) (s : State) : Host.Outcome State Fault Refusal :=
  s.inMesh (fun d => d.ageing slack)

/-- CALIBRATION_READ (R412). -/
def execCalibrationRead (iout : Nat) (vout : Nat) (s : State) : Host.Outcome State Fault Refusal :=
  s.inMesh (fun d => d.calibrate iout vout)

end Sys2Proof.Machine
end

