-- ==== Sys2Proof/Machine/ExecVector.lean ====
section
/-! DEFINITION. The meanings of the commands of the vector engine (R119 to R142). -/

namespace Sys2Proof.Machine

/-- VOP (R126). -/
def execVop (c : CoreCode) (s : State) : Host.Outcome State Fault Refusal :=
  s.onCore c (fun w => w.issueEngine 0x30)

/-- VLD (R134). -/
def execVld (c : CoreCode) (s : State) : Host.Outcome State Fault Refusal :=
  s.onCore c (fun w => w.issueEngine 0x31)

/-- VST (R134). -/
def execVst (c : CoreCode) (s : State) : Host.Outcome State Fault Refusal :=
  s.onCore c (fun w => w.issueEngine 0x32)

/-- VRED (R129). -/
def execVred (c : CoreCode) (s : State) : Host.Outcome State Fault Refusal :=
  s.onCore c (fun w => w.issueEngine 0x33)

/-- VMS (R130). -/
def execVms (c : CoreCode) (s : State) : Host.Outcome State Fault Refusal :=
  s.onCore c (fun w => w.issueEngine 0x34)

/-- VAMX (R137). -/
def execVamx (c : CoreCode) (s : State) : Host.Outcome State Fault Refusal :=
  s.onCore c (fun w => w.issueEngine 0x35)

/-- AMAX_WRITE (R136, R142). -/
def execAmaxWrite (c : CoreCode) (n : Fin 7) (v : Word) (s : State) : Host.Outcome State Fault Refusal :=
  s.onCore c (fun w => (w.amaxWrite (n.val + 1) v).1)

end Sys2Proof.Machine
end

