-- ==== Sys2Proof/Machine/Dispatch.lean ====
section
/-! DEFINITION. Which meaning each command has. -/

namespace Sys2Proof.Machine

/-- The effect of a command on everything but the queue. [DESIGN CHOICE, log 3] -/
def exec (i : Instr) (s : State) : Host.Outcome State Fault Refusal :=
  match i with
  | .registerWrite q v => Sys2Proof.Machine.execRegisterWrite q v s
  | .rcRead q => Sys2Proof.Machine.execRcRead q s
  | .lowWordRead q => Sys2Proof.Machine.execLowWordRead q s
  | .reservedOpcode c => Sys2Proof.Machine.execReservedOpcode c s
  | .nop c => Sys2Proof.Machine.execNop c s
  | .endInstr c => Sys2Proof.Machine.execEndInstr c s
  | .salu c => Sys2Proof.Machine.execSalu c s
  | .sali c => Sys2Proof.Machine.execSali c s
  | .loop c => Sys2Proof.Machine.execLoop c s
  | .lctl c => Sys2Proof.Machine.execLctl c s
  | .brc c => Sys2Proof.Machine.execBrc c s
  | .pred c => Sys2Proof.Machine.execPred c s
  | .shape c => Sys2Proof.Machine.execShape c s
  | .shp c => Sys2Proof.Machine.execShp c s
  | .srd c => Sys2Proof.Machine.execSrd c s
  | .ctxsw c => Sys2Proof.Machine.execCtxsw c s
  | .firingBlockFire c => Sys2Proof.Machine.execFiringBlockFire c s
  | .fbTimeout c b => Sys2Proof.Machine.execFbTimeout c b s
  | .ctxLoaded c ctx => Sys2Proof.Machine.execCtxLoaded c ctx s
  | .ctxStart c ctx => Sys2Proof.Machine.execCtxStart c ctx s
  | .ctxStop c ctx => Sys2Proof.Machine.execCtxStop c ctx s
  | .ctxClear c ctx => Sys2Proof.Machine.execCtxClear c ctx s
  | .contextStopped c ctx => Sys2Proof.Machine.execContextStopped c ctx s
  | .seqSwitch c t => Sys2Proof.Machine.execSeqSwitch c t s
  | .switchDrained c cycles => Sys2Proof.Machine.execSwitchDrained c cycles s
  | .unitDrain c u => Sys2Proof.Machine.execUnitDrain c u s
  | .unitDrained c u => Sys2Proof.Machine.execUnitDrained c u s
  | .unitForce c u => Sys2Proof.Machine.execUnitForce c u s
  | .unitReen c u => Sys2Proof.Machine.execUnitReen c u s
  | .mxm c => Sys2Proof.Machine.execMxm c s
  | .arrayOperation c => Sys2Proof.Machine.execArrayOperation c s
  | .rampPeriodEnd c u => Sys2Proof.Machine.execRampPeriodEnd c u s
  | .mxcfg c => Sys2Proof.Machine.execMxcfg c s
  | .mxb c => Sys2Proof.Machine.execMxb c s
  | .mxsc c => Sys2Proof.Machine.execMxsc c s
  | .mxld c => Sys2Proof.Machine.execMxld c s
  | .mxd c => Sys2Proof.Machine.execMxd c s
  | .mxew c => Sys2Proof.Machine.execMxew c s
  | .mvx c => Sys2Proof.Machine.execMvx c s
  | .mvcfg c => Sys2Proof.Machine.execMvcfg c s
  | .mvm c => Sys2Proof.Machine.execMvm c s
  | .vop c => Sys2Proof.Machine.execVop c s
  | .vld c => Sys2Proof.Machine.execVld c s
  | .vst c => Sys2Proof.Machine.execVst c s
  | .vred c => Sys2Proof.Machine.execVred c s
  | .vms c => Sys2Proof.Machine.execVms c s
  | .vamx c => Sys2Proof.Machine.execVamx c s
  | .amaxWrite c n v => Sys2Proof.Machine.execAmaxWrite c n v s
  | .remoteAccess c => Sys2Proof.Machine.execRemoteAccess c s
  | .ceWriteBack c => Sys2Proof.Machine.execCeWriteBack c s
  | .patrolRead c m => Sys2Proof.Machine.execPatrolRead c m s
  | .bankPowerWrite c m v => Sys2Proof.Machine.execBankPowerWrite c m v s
  | .bankWakeDone c m b => Sys2Proof.Machine.execBankWakeDone c m b s
  | .bankOffDone c m b => Sys2Proof.Machine.execBankOffDone c m b s
  | .handleWrite c ctx h hi v => Sys2Proof.Machine.execHandleWrite c ctx h hi v s
  | .windowWrite c k r v => Sys2Proof.Machine.execWindowWrite c k r v s
  | .ssend c => Sys2Proof.Machine.execSsend c s
  | .srecv c => Sys2Proof.Machine.execSrecv c s
  | .sstat c => Sys2Proof.Machine.execSstat c s
  | .flitAdmit c => Sys2Proof.Machine.execFlitAdmit c s
  | .routerHop c p => Sys2Proof.Machine.execRouterHop c p s
  | .vc2AgedGrant c o => Sys2Proof.Machine.execVc2AgedGrant c o s
  | .reductionCombine c tree => Sys2Proof.Machine.execReductionCombine c tree s
  | .flitDelivery c => Sys2Proof.Machine.execFlitDelivery c s
  | .joinWaitExpiry c ep => Sys2Proof.Machine.execJoinWaitExpiry c ep s
  | .ackReceive c => Sys2Proof.Machine.execAckReceive c s
  | .steerForward c u => Sys2Proof.Machine.execSteerForward c u s
  | .shaperWrite p v => Sys2Proof.Machine.execShaperWrite p v s
  | .cellarPortFlit => Sys2Proof.Machine.execCellarPortFlit s
  | .ddef c => Sys2Proof.Machine.execDdef c s
  | .dgo c => Sys2Proof.Machine.execDgo c s
  | .dmaRequestAdmit c ch => Sys2Proof.Machine.execDmaRequestAdmit c ch s
  | .dmaReadResponse c => Sys2Proof.Machine.execDmaReadResponse c s
  | .dmaWriteAck c => Sys2Proof.Machine.execDmaWriteAck c s
  | .dgoComplete c ch => Sys2Proof.Machine.execDgoComplete c ch s
  | .descriptorWord0Write c ctx slot v => Sys2Proof.Machine.execDescriptorWord0Write c ctx slot v s
  | .descriptorWordWrite c ctx slot k v => Sys2Proof.Machine.execDescriptorWordWrite c ctx slot k v s
  | .rangeEntryWrite c ctx k r v => Sys2Proof.Machine.execRangeEntryWrite c ctx k r v s
  | .ssig c => Sys2Proof.Machine.execSsig c s
  | .swait c => Sys2Proof.Machine.execSwait c s
  | .semWaitTimeout c e => Sys2Proof.Machine.execSemWaitTimeout c e s
  | .sinit c => Sys2Proof.Machine.execSinit c s
  | .wtake c => Sys2Proof.Machine.execWtake c s
  | .wset c => Sys2Proof.Machine.execWset c s
  | .sbar c => Sys2Proof.Machine.execSbar c s
  | .barrierRelease ch => Sys2Proof.Machine.execBarrierRelease ch s
  | .sig c => Sys2Proof.Machine.execSig c s
  | .wait c => Sys2Proof.Machine.execWait c s
  | .waitReply c => Sys2Proof.Machine.execWaitReply c s
  | .take c => Sys2Proof.Machine.execTake c s
  | .takeReply c => Sys2Proof.Machine.execTakeReply c s
  | .semMapWrite c ctx id v => Sys2Proof.Machine.execSemMapWrite c ctx id v s
  | .semValWrite c p v rdie => Sys2Proof.Machine.execSemValWrite c p v rdie s
  | .barrierChannelEnable ch v => Sys2Proof.Machine.execBarrierChannelEnable ch v s
  | .gateCtlWrite c g v => Sys2Proof.Machine.execGateCtlWrite c g v s
  | .gateRowsRelease c g => Sys2Proof.Machine.execGateRowsRelease c g s
  | .gateDeadlineRelease c g => Sys2Proof.Machine.execGateDeadlineRelease c g s
  | .moduleTraining m ok repTx repRx => Sys2Proof.Machine.execModuleTraining m ok repTx repRx s
  | .moduleEnWrite m v => Sys2Proof.Machine.execModuleEnWrite m v s
  | .retrain m => Sys2Proof.Machine.execRetrain m s
  | .retrainComplete m fit => Sys2Proof.Machine.execRetrainComplete m fit s
  | .linkFlitSend m => Sys2Proof.Machine.execLinkFlitSend m s
  | .nullFlitSend m => Sys2Proof.Machine.execNullFlitSend m s
  | .linkFlitReceive m raw => Sys2Proof.Machine.execLinkFlitReceive m raw s
  | .transitAdmit m => Sys2Proof.Machine.execTransitAdmit m s
  | .replayRequest m => Sys2Proof.Machine.execReplayRequest m s
  | .replayTimeout m => Sys2Proof.Machine.execReplayTimeout m s
  | .dieAddrWrite v => Sys2Proof.Machine.execDieAddrWrite v s
  | .hubResponse m => Sys2Proof.Machine.execHubResponse m s
  | .hubTimeout n => Sys2Proof.Machine.execHubTimeout n s
  | .connectionEnable k v => Sys2Proof.Machine.execConnectionEnable k v s
  | .transportPacketReceive k => Sys2Proof.Machine.execTransportPacketReceive k s
  | .transportAckTimer k => Sys2Proof.Machine.execTransportAckTimer k s
  | .transportRetransmitTimeout k => Sys2Proof.Machine.execTransportRetransmitTimeout k s
  | .coreSpanArrival c => Sys2Proof.Machine.execCoreSpanArrival c s
  | .spanQuietExpiry c => Sys2Proof.Machine.execSpanQuietExpiry c s
  | .spanWdogExpiry => Sys2Proof.Machine.execSpanWdogExpiry s
  | .fenceArrival => Sys2Proof.Machine.execFenceArrival s
  | .commitRelease => Sys2Proof.Machine.execCommitRelease s
  | .goRelease => Sys2Proof.Machine.execGoRelease s
  | .rollbackEnter => Sys2Proof.Machine.execRollbackEnter s
  | .drainRelease lines bad => Sys2Proof.Machine.execDrainRelease lines bad s
  | .restoreRelease => Sys2Proof.Machine.execRestoreRelease s
  | .jobStop m => Sys2Proof.Machine.execJobStop m s
  | .markReply st => Sys2Proof.Machine.execMarkReply st s
  | .holdReply st => Sys2Proof.Machine.execHoldReply st s
  | .rewindReply st lines bad => Sys2Proof.Machine.execRewindReply st lines bad s
  | .logReplyTimeout lop => Sys2Proof.Machine.execLogReplyTimeout lop s
  | .spanStop q => Sys2Proof.Machine.execSpanStop q s
  | .spanRoll q => Sys2Proof.Machine.execSpanRoll q s
  | .spanFail q c => Sys2Proof.Machine.execSpanFail q c s
  | .spanLate q => Sys2Proof.Machine.execSpanLate q s
  | .thermostatControlPoint => Sys2Proof.Machine.execThermostatControlPoint s
  | .avsVoutAck ok => Sys2Proof.Machine.execAvsVoutAck ok s
  | .avsSettleDone => Sys2Proof.Machine.execAvsSettleDone s
  | .glideComplete => Sys2Proof.Machine.execGlideComplete s
  | .regionCtlWrite v => Sys2Proof.Machine.execRegionCtlWrite v s
  | .regionWakeComplete r => Sys2Proof.Machine.execRegionWakeComplete r s
  | .regionSleepComplete r => Sys2Proof.Machine.execRegionSleepComplete r s
  | .envelopeInterval => Sys2Proof.Machine.execEnvelopeInterval s
  | .powerStep => Sys2Proof.Machine.execPowerStep s
  | .learnBin => Sys2Proof.Machine.execLearnBin s
  | .sensorSample readings => Sys2Proof.Machine.execSensorSample readings s
  | .thermalTrip sensor => Sys2Proof.Machine.execThermalTrip sensor s
  | .shutdownComplete => Sys2Proof.Machine.execShutdownComplete s
  | .refclkLoss => Sys2Proof.Machine.execRefclkLoss s
  | .aonLoss => Sys2Proof.Machine.execAonLoss s
  | .aonRestore => Sys2Proof.Machine.execAonRestore s
  | .ageingPeriod slack => Sys2Proof.Machine.execAgeingPeriod slack s
  | .calibrationRead iout vout => Sys2Proof.Machine.execCalibrationRead iout vout s
  | .porstRelease f sramOk fmode aonv => Sys2Proof.Machine.execPorstRelease f sramOk fmode aonv s
  | .porstAssert => Sys2Proof.Machine.execPorstAssert s
  | .referencePresent present => Sys2Proof.Machine.execReferencePresent present s
  | .flashImageRead f => Sys2Proof.Machine.execFlashImageRead f s
  | .powerGoodRise => Sys2Proof.Machine.execPowerGoodRise s
  | .powerGoodFall rail => Sys2Proof.Machine.execPowerGoodFall rail s
  | .selfTest finds fatal => Sys2Proof.Machine.execSelfTest finds fatal s
  | .repair => Sys2Proof.Machine.execRepair s
  | .linkTraining => Sys2Proof.Machine.execLinkTraining s
  | .coreFirmware => Sys2Proof.Machine.execCoreFirmware s
  | .firmwareCheck => Sys2Proof.Machine.execFirmwareCheck s
  | .siteCommit q v => Sys2Proof.Machine.execSiteCommit q v s
  | .siteRegisterWrite q n v => Sys2Proof.Machine.execSiteRegisterWrite q n v s
  | .loadGo q v => Sys2Proof.Machine.execLoadGo q v s
  | .loadReadDone st img => Sys2Proof.Machine.execLoadReadDone st img s
  | .dlAcquire q wait wto lease => Sys2Proof.Machine.execDlAcquire q wait wto lease s
  | .dlRenew q lease => Sys2Proof.Machine.execDlRenew q lease s
  | .dlRelease q => Sys2Proof.Machine.execDlRelease q s
  | .dlReinit q => Sys2Proof.Machine.execDlReinit q s
  | .leaseExpiry => Sys2Proof.Machine.execLeaseExpiry s
  | .waiterTimeout => Sys2Proof.Machine.execWaiterTimeout s
  | .jobStart q lines bad => Sys2Proof.Machine.execJobStart q lines bad s
  | .jobPause q => Sys2Proof.Machine.execJobPause q s
  | .jobResume q => Sys2Proof.Machine.execJobResume q s
  | .jobKill q => Sys2Proof.Machine.execJobKill q s
  | .jobUnload q => Sys2Proof.Machine.execJobUnload q s
  | .jobScrub q => Sys2Proof.Machine.execJobScrub q s
  | .scrubComplete => Sys2Proof.Machine.execScrubComplete s
  | .spdmRequest q p v => Sys2Proof.Machine.execSpdmRequest q p v s
  | .getVersion p => Sys2Proof.Machine.execGetVersion p s
  | .getCapabilities p => Sys2Proof.Machine.execGetCapabilities p s
  | .negotiateAlgorithms p => Sys2Proof.Machine.execNegotiateAlgorithms p s
  | .getDigests p => Sys2Proof.Machine.execGetDigests p s
  | .getCertificate p => Sys2Proof.Machine.execGetCertificate p s
  | .challenge p => Sys2Proof.Machine.execChallenge p s
  | .getMeasurements p => Sys2Proof.Machine.execGetMeasurements p s
  | .telemetryIndexWrite n => Sys2Proof.Machine.execTelemetryIndexWrite n s
  | .telemetryRead n => Sys2Proof.Machine.execTelemetryRead n s
  | .epoArm data => Sys2Proof.Machine.execEpoArm data s
  | .epoFire data => Sys2Proof.Machine.execEpoFire data s
  | .epoArmExpiry => Sys2Proof.Machine.execEpoArmExpiry s
  | .entdaa a => Sys2Proof.Machine.execEntdaa a s
  | .setdasa a => Sys2Proof.Machine.execSetdasa a s
  | .setnewda a => Sys2Proof.Machine.execSetnewda a s
  | .rstdaa => Sys2Proof.Machine.execRstdaa s
  | .getpid => Sys2Proof.Machine.execGetpid s
  | .getbcr => Sys2Proof.Machine.execGetbcr s
  | .getdcr => Sys2Proof.Machine.execGetdcr s
  | .getstatus => Sys2Proof.Machine.execGetstatus s
  | .annexCtlWrite c v => Sys2Proof.Machine.execAnnexCtlWrite c v s
  | .faultLogWrite => Sys2Proof.Machine.execFaultLogWrite s
  | .ceStorm c => Sys2Proof.Machine.execCeStorm c s
  | .read32 q => Sys2Proof.Machine.execRead32 q s
  | .write32 q v lines bad => Sys2Proof.Machine.execWrite32 q v lines bad s
  | .lineRead q nl => Sys2Proof.Machine.execLineRead q nl s
  | .lineWrite q lines enables => Sys2Proof.Machine.execLineWrite q lines enables s
  | .lineWriteBits q lines enables => Sys2Proof.Machine.execLineWriteBits q lines enables s
  | .dbgHalt c => Sys2Proof.Machine.execDbgHalt c s
  | .debugHaltEffect c => Sys2Proof.Machine.execDebugHaltEffect c s
  | .dbgStep c => Sys2Proof.Machine.execDbgStep c s
  | .dbgResume c => Sys2Proof.Machine.execDbgResume c s
  | .haltAll => Sys2Proof.Machine.execHaltAll s
  | .resumeAll => Sys2Proof.Machine.execResumeAll s
  | .tapReset => Sys2Proof.Machine.execTapReset s
  | .extest bumps cells => Sys2Proof.Machine.execExtest bumps cells s
  | .samplePreload bumps cells => Sys2Proof.Machine.execSamplePreload bumps cells s
  | .idcode => Sys2Proof.Machine.execIdcode s
  | .bypass => Sys2Proof.Machine.execBypass s
  | .powerGoodTimeout => Sys2Proof.Machine.execPowerGoodTimeout s
  | .peerPhyRetrain m => Sys2Proof.Machine.execPeerPhyRetrain m s
  | .idleFlitSend m => Sys2Proof.Machine.execIdleFlitSend m s
  | .pgAonAssertion => Sys2Proof.Machine.execPgAonAssertion s

end Sys2Proof.Machine
end

