-- ==== Sys2Proof/Machine/Step.lean ====
section
/-! DEFINITION. One step: the command at the front of the queue, or, with none waiting, one cycle of the die. -/

namespace Sys2Proof.Machine

/-- One step of the block. [DESIGN CHOICE, log 2] [DESIGN CHOICE, log 3] [DESIGN CHOICE, log 7] -/
def step (s : State) : Host.Outcome State Fault Refusal :=
  match s.pending with
  | [] => .next { s with die := s.die.tick }
  | c :: rest => exec c { s with pending := rest }

/-- The command that a table word spells put at the front of the queue; the table gives no row any bits, so no word spells one.
[DESIGN CHOICE, log 1] -/
def State.withFetchWord (s : State) (nbits w : Nat) : State :=
  match Sys2Proof.decodeTableWord nbits w with
  | some c => { s with pending := c :: s.pending }
  | none => s

end Sys2Proof.Machine
end

