-- ==== Sys2Proof/Safety.lean ====
section
/-! DEFINITION. What counts as a safe state of the die: not halted, not tripped, its job not stopped. -/

namespace Sys2Proof.Machine

/-- The die has halted in bring-up (R418). -/
abbrev State.halted (s : State) : Prop := s.die.phase = 15

/-- A trip, an emergency power-off or a clock loss is latched (R408). -/
abbrev State.tripped (s : State) : Prop := bit (s.die.reg 0x100064) 31 = true

/-- The job has been stopped on channel 31 (R375, R377). -/
abbrev State.jobStopped (s : State) : Prop := s.die.spanPhase = 5

/-- A safe state: none of these. -/
abbrev State.safe (s : State) : Prop := ¬ s.halted ∧ ¬ s.tripped ∧ ¬ s.jobStopped

/-! ### What a command reaches -/

/-- The part of the block a command acts on: one core, the mesh domain, die control, the management bus, the test access port, or the
power and reset pins. -/
inductive Reach where
  | core (c : CoreCode)
  | mesh
  | control
  | bus
  | tap
  | reset
deriving DecidableEq, Repr

/-- What each command of the table reaches (R29, R391, R392, R472, R541 to R546). -/
def reachOf : Instr → Reach
  | .registerWrite _ _ => .control
  | .rcRead _ => .control
  | .lowWordRead _ => .control
  | .reservedOpcode c => .core c
  | .nop c => .core c
  | .endInstr c => .core c
  | .salu c => .core c
  | .sali c => .core c
  | .loop c => .core c
  | .lctl c => .core c
  | .brc c => .core c
  | .pred c => .core c
  | .shape c => .core c
  | .shp c => .core c
  | .srd c => .core c
  | .ctxsw c => .core c
  | .firingBlockFire c => .core c
  | .fbTimeout c _ => .core c
  | .ctxLoaded c _ => .core c
  | .ctxStart c _ => .core c
  | .ctxStop c _ => .core c
  | .ctxClear c _ => .core c
  | .contextStopped c _ => .core c
  | .seqSwitch c _ => .core c
  | .switchDrained c _ => .core c
  | .unitDrain c _ => .core c
  | .unitDrained c _ => .core c
  | .unitForce c _ => .core c
  | .unitReen c _ => .core c
  | .mxm c => .core c
  | .arrayOperation c => .core c
  | .rampPeriodEnd c _ => .core c
  | .mxcfg c => .core c
  | .mxb c => .core c
  | .mxsc c => .core c
  | .mxld c => .core c
  | .mxd c => .core c
  | .mxew c => .core c
  | .mvx c => .core c
  | .mvcfg c => .core c
  | .mvm c => .core c
  | .vop c => .core c
  | .vld c => .core c
  | .vst c => .core c
  | .vred c => .core c
  | .vms c => .core c
  | .vamx c => .core c
  | .amaxWrite c _ _ => .core c
  | .remoteAccess c => .core c
  | .ceWriteBack c => .core c
  | .patrolRead c _ => .core c
  | .bankPowerWrite c _ _ => .core c
  | .bankWakeDone c _ _ => .core c
  | .bankOffDone c _ _ => .core c
  | .handleWrite c _ _ _ _ => .core c
  | .windowWrite c _ _ _ => .core c
  | .ssend c => .core c
  | .srecv c => .core c
  | .sstat c => .core c
  | .flitAdmit _ => .mesh
  | .routerHop _ _ => .mesh
  | .vc2AgedGrant _ _ => .mesh
  | .reductionCombine _ _ => .mesh
  | .flitDelivery c => .core c
  | .joinWaitExpiry c _ => .core c
  | .ackReceive c => .core c
  | .steerForward c _ => .core c
  | .shaperWrite _ _ => .mesh
  | .cellarPortFlit => .mesh
  | .ddef c => .core c
  | .dgo c => .core c
  | .dmaRequestAdmit c _ => .core c
  | .dmaReadResponse c => .core c
  | .dmaWriteAck c => .core c
  | .dgoComplete c _ => .core c
  | .descriptorWord0Write c _ _ _ => .core c
  | .descriptorWordWrite c _ _ _ _ => .core c
  | .rangeEntryWrite c _ _ _ _ => .core c
  | .ssig c => .core c
  | .swait c => .core c
  | .semWaitTimeout c _ => .core c
  | .sinit c => .core c
  | .wtake c => .core c
  | .wset c => .core c
  | .sbar c => .core c
  | .barrierRelease _ => .mesh
  | .sig c => .core c
  | .wait c => .core c
  | .waitReply c => .core c
  | .take c => .core c
  | .takeReply c => .core c
  | .semMapWrite c _ _ _ => .core c
  | .semValWrite c _ _ _ => .core c
  | .barrierChannelEnable _ _ => .mesh
  | .gateCtlWrite c _ _ => .core c
  | .gateRowsRelease c _ => .core c
  | .gateDeadlineRelease c _ => .core c
  | .moduleTraining _ _ _ _ => .mesh
  | .moduleEnWrite _ _ => .mesh
  | .retrain _ => .mesh
  | .retrainComplete _ _ => .mesh
  | .linkFlitSend _ => .mesh
  | .nullFlitSend _ => .mesh
  | .linkFlitReceive _ _ => .mesh
  | .transitAdmit _ => .mesh
  | .replayRequest _ => .mesh
  | .replayTimeout _ => .mesh
  | .dieAddrWrite _ => .mesh
  | .hubResponse _ => .mesh
  | .hubTimeout _ => .mesh
  | .connectionEnable _ _ => .mesh
  | .transportPacketReceive _ => .mesh
  | .transportAckTimer _ => .mesh
  | .transportRetransmitTimeout _ => .mesh
  | .coreSpanArrival _ => .mesh
  | .spanQuietExpiry _ => .mesh
  | .spanWdogExpiry => .mesh
  | .fenceArrival => .mesh
  | .commitRelease => .mesh
  | .goRelease => .mesh
  | .rollbackEnter => .mesh
  | .drainRelease _ _ => .mesh
  | .restoreRelease => .mesh
  | .jobStop _ => .mesh
  | .markReply _ => .mesh
  | .holdReply _ => .mesh
  | .rewindReply _ _ _ => .mesh
  | .logReplyTimeout _ => .mesh
  | .spanStop _ => .control
  | .spanRoll _ => .control
  | .spanFail _ _ => .control
  | .spanLate _ => .control
  | .thermostatControlPoint => .mesh
  | .avsVoutAck _ => .control
  | .avsSettleDone => .control
  | .glideComplete => .mesh
  | .regionCtlWrite _ => .mesh
  | .regionWakeComplete _ => .mesh
  | .regionSleepComplete _ => .mesh
  | .envelopeInterval => .mesh
  | .powerStep => .mesh
  | .learnBin => .mesh
  | .sensorSample _ => .mesh
  | .thermalTrip _ => .control
  | .shutdownComplete => .control
  | .refclkLoss => .control
  | .aonLoss => .control
  | .aonRestore => .control
  | .ageingPeriod _ => .mesh
  | .calibrationRead _ _ => .mesh
  | .porstRelease _ _ _ _ => .reset
  | .porstAssert => .reset
  | .referencePresent _ => .control
  | .flashImageRead _ => .control
  | .powerGoodRise => .control
  | .powerGoodFall _ => .reset
  | .selfTest _ _ => .control
  | .repair => .control
  | .linkTraining => .control
  | .coreFirmware => .control
  | .firmwareCheck => .control
  | .siteCommit _ _ => .control
  | .siteRegisterWrite _ _ _ => .control
  | .loadGo _ _ => .control
  | .loadReadDone _ _ => .mesh
  | .dlAcquire _ _ _ _ => .control
  | .dlRenew _ _ => .control
  | .dlRelease _ => .control
  | .dlReinit _ => .control
  | .leaseExpiry => .control
  | .waiterTimeout => .control
  | .jobStart _ _ _ => .control
  | .jobPause _ => .control
  | .jobResume _ => .control
  | .jobKill _ => .control
  | .jobUnload _ => .control
  | .jobScrub _ => .control
  | .scrubComplete => .control
  | .spdmRequest _ _ _ => .control
  | .getVersion _ => .control
  | .getCapabilities _ => .control
  | .negotiateAlgorithms _ => .control
  | .getDigests _ => .control
  | .getCertificate _ => .control
  | .challenge _ => .control
  | .getMeasurements _ => .control
  | .telemetryIndexWrite _ => .bus
  | .telemetryRead _ => .bus
  | .epoArm _ => .bus
  | .epoFire _ => .bus
  | .epoArmExpiry => .bus
  | .entdaa _ => .bus
  | .setdasa _ => .bus
  | .setnewda _ => .bus
  | .rstdaa => .bus
  | .getpid => .bus
  | .getbcr => .bus
  | .getdcr => .bus
  | .getstatus => .bus
  | .annexCtlWrite c _ => .core c
  | .faultLogWrite => .control
  | .ceStorm _ => .control
  | .read32 _ => .control
  | .write32 _ _ _ _ => .control
  | .lineRead _ _ => .control
  | .lineWrite _ _ _ => .control
  | .lineWriteBits _ _ _ => .control
  | .dbgHalt c => .core c
  | .debugHaltEffect c => .core c
  | .dbgStep c => .core c
  | .dbgResume c => .core c
  | .haltAll => .mesh
  | .resumeAll => .mesh
  | .tapReset => .tap
  | .extest _ _ => .tap
  | .samplePreload _ _ => .tap
  | .idcode => .tap
  | .bypass => .tap
  | .powerGoodTimeout => .control
  | .peerPhyRetrain _ => .mesh
  | .idleFlitSend _ => .mesh
  | .pgAonAssertion => .reset

/-! ### Canonical memories -/

/-- The memories of a core are in their one canonical form: bytes and error states listed in rising order, none that reads as unlisted. -/
def Core.memWf (k : Core) : Bool := tblWf 0 0 k.mem && tblWf .clean 0 k.werr

/-! ### A write of die control -/

/-- A write of the register at `off` that the die serves for this request: out of reset, no Doorlatch timeout due, the register's domain
on, the requester a control port, and the Doorlatch held where the write is guarded (R392, R448, R452, R456, R502). -/
abbrev State.MayWrite (s : State) (q : Req) (off : Nat) : Prop :=
  s.die.boot.porst = false ∧ s.die.comes q = true ∧ q.byPort = true ∧ s.die.latchDue = s.die ∧ (dieBlock off = some true → s.die.meshOn = true) ∧
    s.die.mayWrite q (.die off) = St.OK

/-- The last response the die has given. -/
def State.lastReply (s : State) : Option Resp := s.die.resps.getLast?

/-! ### A core as a command finds it and leaves it -/

/-- The core a command on `c` finds. -/
def State.coreAt (s : State) (c : CoreCode) : Core := s.die.core c.toNat

/-- The core `c` at work, nothing raised yet. -/
def State.wk (s : State) (c : CoreCode) : Wk := ⟨s.die.env c, s.coreAt c, []⟩

/-- The block with another die. -/
def State.withDie (s : State) (d : Die) : State := { s with die := d }

/-- The block with core `c` replaced and nothing else changed. -/
def State.withCore (s : State) (c : CoreCode) (k : Core) : State := s.withDie (s.die.setCore c.toNat k)

/-- The core of a window's code, as a Service request finds it. -/
def Die.wkAt (d : Die) (code : Nat) : Wk := ⟨d.env (BitVec.ofNat 12 code), d.core code, []⟩

/-- Every bank of these offsets serves, every word of them is clean, and none has been written in this cycle: what an access finds in the
common case (R149, R160, R163). -/
abbrev Wk.Clean (w : Wk) (m : Nat) (offs : List Nat) : Prop :=
  (∀ o ∈ offs, (w.c.bank m (w.bankAt m o)).serves = true) ∧ w.badWords m offs = [] ∧
    ∀ o ∈ offs, (tget OldWord.none w.c.old (w.byteKey m o / 8)).at_ ≠ w.env.cyc + 1

/-- The byte a read of a clean word gives. -/
def Wk.bytesAt (w : Wk) (m : Nat) (offs : List Nat) : List Byte := offs.map (fun o => w.byteAt m o)

/-- The core once some bytes have been read through a port: each of their lines is an access that the bank has still to serve (R146). -/
def Wk.asked (w : Wk) (port m : Nat) (offs : List Nat) : Core := (w.askPort port m false w.env.cyc 0 (linesIn offs)).c

/-- The accesses that a read or a write through a handle and a port leaves for the banks to serve, one for each line, tagged as its requester's
(R146, R151). -/
def Wk.asks (w : Wk) (ctx h port tag : Nat) (write : Bool) (os : List Int) : List PortReq :=
  match w.handle ctx h write with
  | .inl b => (linesIn (b.offs os)).map (fun o =>
      let br := bankRow w.c.annex w.env.smallPantry b.mem o
      ⟨port, b.mem, br.1, br.2, write, w.env.cyc, 0, tag⟩)
  | .inr _ => []

/-- n consecutive offsets. -/
def offsets (o n : Nat) : List Nat := (List.range n).map (fun i => o + i)

/-- The die with every remote-access window of its job cores closed (R159). -/
def Die.windowsClosed (d : Die) : Die := d.jobCores.foldl (fun d c => d.atCore c (fun w => w.closeWindows)) d

/-- What a fault of a core does to the die: the running span is dirty, and the fault goes to the fault log (R355, R492). -/
def Die.coreFault (d : Die) (c : CoreCode) (ctx : Nat) (st : Status) : Die := (d.dirty 0 c.toNat st).report 1 0 c.toNat st ctx

/-- The die but for what the work of a core can touch: cores, registers of die control with the events of the cycle that R17 keeps apart,
router inputs, the fault log's queue, the span marks and the barrier events of the modules. -/
def Die.around (d : Die) : Die := { d with regs := [], fresh := [], cores := [], routers := [], mods := [], flog := [], span := .reset }

/-- A command answers a next state with the property `P`. -/
def Answers (o : Host.Outcome State Fault Refusal) (P : State → Prop) : Prop := ∃ t, o = .next t ∧ P t

/-- Context `ctx` of core `c` can issue word `x` at `pc` in this cycle: it is in its range, decode does not refuse it, and nothing
holds it back (R173, R174, R178, R193, R402). -/
abbrev State.Issues (s : State) (c : CoreCode) (ctx pc : Nat) (x : BitVec 64) : Prop :=
  s.die.coreOn c.toNat = true ∧ (s.wk c).issuing = some ctx ∧ ((s.coreAt c).ctx ctx).npc = pc ∧ (s.coreAt c).inRange ctx pc = true ∧
    (s.coreAt c).iword pc = x ∧ (s.coreAt c).decodeBad s.die.cyc ctx pc x = none ∧ (s.coreAt c).scoreboard s.die.cyc ctx x = false ∧
    (queueOf x ≠ 0 → ((s.coreAt c).queue (queueOf x)).length < queueDepth (queueOf x))

/-- The core's engines have nothing else to do: every queue is empty, the sequencer waits for nothing, no channel runs. -/
abbrev Core.Idle (k : Core) : Prop := k.queues = [] ∧ k.sync0 = none ∧ ∀ ch, ch < 4 → (k.chan ch).run = none

/-- The core as the issue of an engine instruction leaves it: the instruction alone in its queue (R174, R177). -/
def State.issuedWk (s : State) (c : CoreCode) (ctx pc : Nat) (x : BitVec 64) : Wk := (s.wk c).enqueue ctx pc x

/-! ### What the statements speak of -/

/-- The die is held in reset (R542): with PORST_N low everything but the outputs is at its reset value, and the outputs are those of a die
with PG_AON low or of one that waits for PORST_N (R534). -/
abbrev HeldInReset (s : State) : Prop :=
  s.die.boot.porst = true → s.die = { Die.reset with pins := s.die.pins } ∧ (s.die.pins = .unpowered ∨ s.die.pins = .reset)

/-- The check symbols of an error pattern: of flipped data bits, or of flipped check bits themselves. -/
def checkOf (i e : Nat) : BitVec 12 := if i < 16 then eccCheck (BitVec.ofNat 64 (put e (4 * i))) else BitVec.ofNat 12 (put e (4 * (i - 16)))

/-- A Service request that the die serves: the die is out of reset, the request comes by its way and is for this die (R314, R513), it stands
behind none of its requester that waits at the same core (R503), `d` is the die with its due Doorlatch timeouts taken (R456), and no port's
SPDM responder is at work; one of the Cellar for a core window has come through the Cellar port (R549). -/
abbrev Serves (s : State) (d : Die) (q : Req) : Prop :=
  s.die.boot.porst = false ∧ s.die.comes q = true ∧ s.die.mine q = true ∧ s.die.portSends q = false ∧ s.die.latchDue = d ∧ d.behind q = false ∧ d.smallPantry = s.die.smallPantry ∧ (d.spdmOf 0).busy = false ∧ (d.spdmOf 1).busy = false

/-- The W1C registers of die control with the bits they clear (R16, R341, R411, R414, R418, R441, R475, R476). -/
def w1cRegs : List (Nat × Word) :=
  [(0x80004, 0x80000000), (0x100058, 0x3FF0000), (0x100060, 0x80000000), (0x140004, 0x80000000), (0x180014, 0x80000000),
   (0x1C004C, 0x80000000), (0x1C0050, 0x6F)]

/-- The phase that channel 31 is in is released on this die: it and its children have arrived, and it is the root, or its own arrival has
gone up and its parent has released it (R283, R357). -/
abbrev Die.Released (d : Die) : Prop :=
  d.full31 = true ∧ ((d.parentOf 31).1 = true ∨ ((d.bar 31).up = true ∧ (d.bar 31).down = some false))

/-! ### What a core's sequencer shows -/

/-- Core `c` of `t` shows context `ctx` refused with `st` at word `pc` of queue `q`: FAULTED, recorded, and the fault reported (R179,
R191, R202, R355). -/
def State.Faulted (s t : State) (c : CoreCode) (ctx q pc : Nat) (st : Status) : Prop :=
  ((t.coreAt c).ctx ctx).state = .faulted ∧ (t.coreAt c).reg 0x004 = BitVec.ofNat 32 (put 1 31 + put ctx 16 + st.toNat) ∧
    (t.coreAt c).reg 0x008 = BitVec.ofNat 32 (put q 12 + pc % 4096) ∧
    (s.die.flog.length < 32 → ∃ e ∈ t.die.flog, e.sev = 1 ∧ e.src = 0 ∧ e.loc = c.toNat ∧ e.st = st ∧ e.ctx = ctx) ∧
    t.die.around = s.die.around ∧ t.bus = s.bus ∧ t.tap = s.tap ∧ t.pending = s.pending

/-- A context that has just started on a core that was `k` (R191, R231). -/
abbrev Core.Started (k k' : Core) (ctx : Nat) : Prop :=
  (k'.ctx ctx).state = .running ∧ (k'.ctx ctx).inblk = false ∧ (k'.ctx ctx).stopping = false ∧ (k'.ctx ctx).sr = 0xFFFF ∧
    (k'.ctx ctx).sc = 0xFFFF ∧ (k'.ctx ctx).sk = 0xFF ∧ (k'.ctx ctx).ovr = 0 ∧ (k'.ctx ctx).fbCnt = [] ∧ (k'.ctx ctx).fbPend = [] ∧
    ∀ e, e < 16 → k.epCtx e = ctx → (k'.ep e).starved = false

/-- The core and the opcode of a command that issues an instruction (R87, R121, R180, R216, R241, R272). -/
def issueOf : Instr → Option (CoreCode × Nat)
  | .nop c => some (c, 0x00)
  | .endInstr c => some (c, 0x01)
  | .salu c => some (c, 0x02)
  | .sali c => some (c, 0x03)
  | .loop c => some (c, 0x05)
  | .lctl c => some (c, 0x06)
  | .brc c => some (c, 0x07)
  | .pred c => some (c, 0x08)
  | .shape c => some (c, 0x09)
  | .shp c => some (c, 0x0A)
  | .srd c => some (c, 0x0B)
  | .ctxsw c => some (c, 0x0D)
  | .ssig c => some (c, 0x10)
  | .swait c => some (c, 0x11)
  | .sinit c => some (c, 0x12)
  | .wtake c => some (c, 0x13)
  | .wset c => some (c, 0x14)
  | .sbar c => some (c, 0x15)
  | .ddef c => some (c, 0x18)
  | .dgo c => some (c, 0x19)
  | .ssend c => some (c, 0x1C)
  | .srecv c => some (c, 0x1D)
  | .sstat c => some (c, 0x1E)
  | .mxm c => some (c, 0x20)
  | .mxcfg c => some (c, 0x21)
  | .mxb c => some (c, 0x22)
  | .mxsc c => some (c, 0x23)
  | .mxld c => some (c, 0x24)
  | .mxd c => some (c, 0x25)
  | .mxew c => some (c, 0x26)
  | .mvx c => some (c, 0x28)
  | .mvcfg c => some (c, 0x29)
  | .mvm c => some (c, 0x2A)
  | .vop c => some (c, 0x30)
  | .vld c => some (c, 0x31)
  | .vst c => some (c, 0x32)
  | .vred c => some (c, 0x33)
  | .vms c => some (c, 0x34)
  | .vamx c => some (c, 0x35)
  | _ => none

/-- A command replaces core `c` by one with the property `P`, and changes nothing else of the block. -/
def CoreGives (o : Host.Outcome State Fault Refusal) (s : State) (c : CoreCode) (P : Core → Prop) : Prop :=
  ∃ k, o = .next (s.withCore c k) ∧ P k

/-- The scalar registers that a word reads or writes are not waiting for an engine's write (R178). -/
abbrev Core.Settled (k : Core) (cyc ctx : Nat) (x : BitVec 64) : Prop :=
  ∀ r ∈ readsOf x ++ writesOf x, tget 0 k.ve.sDone (16 * ctx + r) ≤ cyc

/-- An instruction that issues in this cycle on a core whose engines have nothing else to do, and whose scalar registers are settled. -/
abbrev State.Runs (s : State) (c : CoreCode) (ctx pc : Nat) (x : BitVec 64) (op : Nat) : Prop :=
  s.Issues c ctx pc x ∧ (s.coreAt c).Idle ∧ opc x = op ∧ (s.coreAt c).Settled s.die.cyc ctx x

/-- A read through a handle inside its buffer, from banks that serve and words that are clean, and the bytes it gives (R155, R160). -/
def Wk.Reads (w : Wk) (ctx h : Nat) (os : List Int) (bytes : List Byte) : Prop :=
  ∃ b, w.handle ctx h false = .inl b ∧ (∀ o ∈ os, b.has o = true) ∧ w.Clean b.mem (b.offs os) ∧ bytes = w.bytesAt b.mem (b.offs os)

/-- A write through a handle and a port inside its buffer, into banks that serve and words that are clean, and the core after it (R155, R160,
R165). -/
def Wk.Writes (w : Wk) (ctx h port : Nat) (ws : List (Int × Byte × Byte)) (k : Core) : Prop :=
  ∃ b, w.handle ctx h true = .inl b ∧ (∀ x ∈ ws, b.has x.1 = true) ∧ w.Clean b.mem (b.offs (ws.map (·.1))) ∧ k = (w.writeBuf b port ws).1.c

/-- Unit `u` (0 the matrix unit, 1 the vector path) takes an operation on block `blk` in this cycle: it has its grant, its ramp allows the
cycle, and neither the block nor the array is busy (R109, R110, R114, R396). -/
abbrev Wk.Accepts (w : Wk) (u blk : Nat) : Prop :=
  tget 0 w.c.mx.blkFree blk ≤ w.env.cyc ∧ w.mayStart u = true ∧
    rampAllows ((w.c.mx.ramp u).onReady w.env.cyc).level ((w.env.cyc - ((w.c.mx.ramp u).onReady w.env.cyc).start) % 4) = true ∧
    (if u = 0 then w.c.mx.arrFree else w.c.mx.pathFree) ≤ w.env.cyc

/-- What taking it does to the matrix state: the ramp sees an operation ready, the block is busy for `lat` cycles and the array for
`occ`. -/
def Matrix.taken (m : Matrix) (u blk cyc lat occ : Nat) : Matrix :=
  let m := m.setRamp u ((m.ramp u).onReady cyc)
  let m := { m with blkFree := tset 0 m.blkFree blk (cyc + lat) }
  if u = 0 then { m with arrFree := cyc + occ } else { m with pathFree := cyc + occ }

/-- The vector engine takes the instruction of entry `e` in this cycle: its pipe is free, the registers are ready, it has its grant
(R138 to R140, R396). -/
abbrev Wk.VeTakes (w : Wk) (e : QEntry) : Prop :=
  w.pipeFree (w.veTiming e) = true ∧ w.pipeReady (w.veTiming e) = true ∧ w.mayStart 2 = true

/-- What that leaves of the core beside its effect: one instruction counted, the pipe taken, the lines of a VLD or VST asked for, the engine
active, its queue empty. -/
def Wk.veTaken (w : Wk) (e : QEntry) (f : Wk → Wk) : Core :=
  { (((f w).bump 0x804 1).pipeTake e (w.veTiming e)).c with
    ports := w.c.ports ++ (if opc e.word = 0x31 ∨ opc e.word = 0x32 then w.vecAsks e else [])
    ballast := tset .released w.c.ballast 2 (.active w.env.cyc), queues := [] }

/-- The bucket after one flit is admitted in each of these cycles; none where one of them finds no token (R220). -/
def Shaper.spendAll (b : Shaper) (r : Word) : List Nat → Option Shaper
  | [] => some b
  | x :: xs => match b.spend r x 1 with
    | some b' => b'.spendAll r xs
    | none => none

/-- No remote wait of the core is granted in cycle `cyc`: none holds for the value that grants are tested against (R276). -/
abbrev Core.NoGrant (k : Core) (cyc : Nat) : Prop :=
  ∀ i r, i < 16 → k.rwait i = some r → waitHolds k.annex r.cmp r.thresh ((k.sem r.phys).grantable cyc) = false

/-- The core after the one instruction that its engines or its sequencer had is gone. -/
def Core.ended (k : Core) : Core := { k with queues := [], sync0 := none }

/-- The core with the one synchronisation instruction it has changed to `e`, at the head of queue `q`, or the sequencer's own. -/
def Core.holding (k : Core) (q : Nat) (e : QEntry) : Core :=
  if q = 0 then { k with queues := [], sync0 := some e } else { k with queues := [(q, [e])], sync0 := none }

/-- The die has halted in phase `phase` of bring-up with status `st`: recorded, the fault logged, the alert set, only the Cellar domain on
(R418, R475, R540). -/
def State.HaltsWith (s t : State) (phase : Nat) (st : Status) : Prop :=
  t.halted ∧ t.die.reg 0x140004 = BitVec.ofNat 32 (put 1 31 + put phase 16 + st.toNat) ∧ bit (t.die.reg 0x140000) 30 = true ∧
    bit (t.die.reg 0x1C0050) 4 = true ∧ t.die.cores = [] ∧ t.die.routers = [] ∧ t.die.mods = [] ∧ t.die.meshOn = false ∧ t.die.pins.pwrEn = .low ∧
    (s.die.flog.length < 32 → ∃ e ∈ t.die.flog, e.sev = 3 ∧ e.src = 6 ∧ e.st = st) ∧ t.bus = s.bus ∧ t.tap = s.tap ∧ t.pending = s.pending

/-- Bring-up goes on in phase `p`, timed from now (R417). -/
def State.Enters (s t : State) (p : Nat) : Prop :=
  t.die.phase = p ∧ t.die.boot.phaseTs = s.die.ts.toNat ∧ t.die.flog = s.die.flog ∧ t.bus = s.bus ∧ t.tap = s.tap ∧ t.pending = s.pending

/-- A request of code `code` waits in port `p`'s mailbox: message `m` (R470, R471). -/
abbrev State.Asked (s : State) (p code : Nat) (m : List Byte) : Prop :=
  s.die.boot.porst = false ∧ (s.die.spdmOf p).busy = true ∧ m = s.die.spdmMsg p ∧ byteAt m 1 = code

/-- The responder has answered `r` on port `p`, and touched nothing but that port's mailbox and the count of nonces (R471). -/
def State.Replied (s t : State) (p : Nat) (r : List Byte) : Prop :=
  (t.die.spdmOf p).busy = false ∧ (t.die.spdmOf p).resp = r.take 4096 ∧ (t.die.spdmOf p).req = (s.die.spdmOf p).req ∧
    t.die.rf (0x200204 + 16 * p) 12 0 = (r.take 4096).length ∧ bit (t.die.reg (0x200204 + 16 * p)) 30 = true ∧
    (∀ o, o ≠ 0x200204 + 16 * p → t.die.reg o = s.die.reg o) ∧ (∀ o, o ≠ p → t.die.spdmOf o = s.die.spdmOf o) ∧
    t.die = { s.die with spdm := t.die.spdm, regs := t.die.regs, nonces := t.die.nonces, fresh := t.die.fresh } ∧ t.bus = s.bus ∧ t.tap = s.tap ∧ t.pending = s.pending

/-- The port's state machine after an answer: its stage and transcripts. -/
def State.spdmAt (t : State) (p : Nat) : Nat × List Byte × List Byte × List Byte :=
  ((t.die.spdmOf p).stage, (t.die.spdmOf p).transA, (t.die.spdmOf p).transB, (t.die.spdmOf p).transM)

end Sys2Proof.Machine
end

