-- ==== Sys2Proof/Certificates/Slice0/Obligations.lean ====
section
/-! DEFINITION. The statements: what the commands of the die do, and what every step keeps. A statement over several families joins parts that
stand before it, each a proposition of its own (Claims). -/

open Sys2Proof Sys2Proof.Machine

/-! ### The block -/

/-- R472, R545, R501 and the command table: the block takes one command at a time, the one at the front of its queue, and a step of it
is that command's effect on the block with the rest of the queue (the queue is the model's, log 3). -/
def Obligations.StepRunsTheFrontCommand : Prop :=
  ∀ (c : Instr) (rest : List Instr) (s : State), s.pending = c :: rest → step s = exec c { s with pending := rest }

/-- With no command waiting a step is one cycle of the die, and nothing moves while PORST_N is low (the model's choice, log 2). -/
def Obligations.IdleStepIsOneCycle : Prop :=
  ∀ s : State, s.pending = [] → Answers (step s) (fun t =>
    t.pending = [] ∧ t.bus = s.bus ∧ t.tap = s.tap ∧ (s.die.boot.porst = true → t = s))

/-- Every command of the table answers a next state and leaves the queue of waiting commands as it is (log 3, log 15). -/
def Obligations.EveryCommandAnswersAndKeepsTheQueue : Prop :=
  ∀ (c : Instr) (s : State), Answers (exec c s) (fun t => t.pending = s.pending)

/-- R29, R391, R392, R542: a command on a core that is not at work, on the mesh domain while it is off, or on die control while PORST_N
is low changes nothing; only commands of the bus and of the reset and power pins touch the bus; a command of the TAP touches nothing
else, and only it and the power pins touch the TAP. -/
def Claims.CommandsKeepToTheirReach : Prop :=
  ∀ (i : Instr) (s : State), Answers (exec i s) (fun t =>
    (∀ c, reachOf i = .core c → s.die.coreOn c.toNat = false → t = s) ∧
    (reachOf i = .mesh → s.die.meshOn = false → t = s) ∧
    (reachOf i = .control → s.die.boot.porst = true → t = s) ∧
    (reachOf i = .tap → t.die = s.die) ∧
    (reachOf i ≠ .bus → reachOf i ≠ .reset → t.bus = s.bus) ∧
    (reachOf i ≠ .tap → reachOf i ≠ .reset → t.tap = s.tap))

/-- The frame of every command of a core: it leaves the bus, the TAP, the queue and all of the die but cores, registers of die control,
router inputs, the fault log's queue, the span marks and the modules' barrier events (R208, R287, R355, R494). -/
def Claims.CoreCommandsLeaveTheDieAround : Prop :=
  ∀ (i : Instr) (c : CoreCode) (s : State), reachOf i = .core c → Answers (exec i s) (fun t =>
    t.die.around = s.die.around ∧ t.bus = s.bus ∧ t.tap = s.tap ∧ t.pending = s.pending)

/-- A command leaves what it cannot reach, and does nothing where its place is shut. -/
def Obligations.CommandsKeepToTheirReach : Prop :=
  Claims.CommandsKeepToTheirReach ∧ Claims.CoreCommandsLeaveTheDieAround

/-- R453, R542, R545: after reset the Doorlatch is free and not orphaned with LASTP = B, the fault log and its queue are empty, no job is
loaded, no core, router or module holds anything, and the TAP is in IDCODE; the queue is empty (log 3). -/
def Claims.ResetLeavesTheBlock : Prop :=
  State.reset.die.latch.held = false ∧ State.reset.die.latch.orph = false ∧ State.reset.die.latch.lastp = 1 ∧
    State.reset.die.latch.waiters = [] ∧ State.reset.die.flog = [] ∧ State.reset.die.job.state = 0 ∧ State.reset.tap.ir = .idcode ∧
    State.reset.bus.dynamic = none ∧ State.reset.bus.armed = none ∧ State.reset.pending = [] ∧ State.reset.die.boot.porst = true ∧
    (∀ off, State.reset.die.reg off = porchRegReset off) ∧ (∀ n, State.reset.die.core n = .reset) ∧
    (∀ n, State.reset.die.router n = .reset) ∧ (∀ m, State.reset.die.mod m = .reset)

/-- The invariant holds right after reset. -/
def Claims.ResetIsHeldInReset : Prop := HeldInReset State.reset

/-- What reset leaves: the Doorlatch free, nothing held, no job, the TAP in IDCODE, the queue empty; reset meets HeldInReset. -/
def Obligations.ResetLeavesTheBlock : Prop :=
  Claims.ResetLeavesTheBlock ∧ Claims.ResetIsHeldInReset

/-- Every step keeps it: whatever command runs, a die whose PORST_N is low stands at its reset values (R534, R542). -/
def Obligations.EveryStepKeepsHeldInReset : Prop :=
  ∀ s t : State, HeldInReset s → step s = .next t → HeldInReset t

/-! ### The test access port -/

/-- R545, R546, R542: the five commands of the TAP. While PG_AON is high each instruction of the TAP selects its register: IDCODE shifts
out 0x100A_7753; SAMPLE/PRELOAD and EXTEST shift out the levels of the bumps, lowest bit first (the order is the model's, log 112), and
take the cells in; under EXTEST the cells drive the outputs. TRST_N selects IDCODE. With PG_AON low an instruction changes nothing (the
model's choice, log 112). The TAP reaches nothing else. -/
def Claims.TestAccessPort : Prop :=
  (∀ s : State, exec .tapReset s = .next { s with tap := ⟨.idcode, [], 0⟩ }) ∧
  (∀ s : State, s.die.aonOn = true → exec .idcode s = .next { s with tap := ⟨.idcode, s.tap.bsr, 0x100A7753⟩ }) ∧
  (∀ s : State, s.die.aonOn = true → exec .bypass s = .next { s with tap := ⟨.bypass, s.tap.bsr, 0⟩ }) ∧
  (∀ (bumps cells : List Bool) (s : State), s.die.aonOn = true → Answers (exec (.samplePreload bumps cells) s) (fun t =>
    t.die = s.die ∧ t.bus = s.bus ∧ t.pending = s.pending ∧ t.tap.ir = .sample ∧ t.tap.bsr = cells ∧ t.outputs = .inl s.die.pins ∧
      ∀ k, t.tap.out.testBit k = nth false bumps k)) ∧
  (∀ (bumps cells : List Bool) (s : State), s.die.aonOn = true → Answers (exec (.extest bumps cells) s) (fun t =>
    t.die = s.die ∧ t.bus = s.bus ∧ t.pending = s.pending ∧ t.tap.ir = .extest ∧ t.tap.bsr = cells ∧ t.outputs = .inr cells ∧
      ∀ k, t.tap.out.testBit k = nth false bumps k)) ∧
  (∀ (i : Instr) (s : State), i ≠ .tapReset → reachOf i = .tap → s.die.aonOn = false → exec i s = .next s)

/-! ### The management bus -/

/-- R472: the eight common command codes, on a die whose bus is usable (from the end of phase ROM on). An address is given to a die that
has none (log 109), SETNEWDA changes it, RSTDAA takes it away; GETPID answers 0x2C51 in [47:33], a 1 in bit 32 and the low half of the
serial number; GETBCR, GETDCR and GETSTATUS answer one word that the manual does not give (a free value, log 109). A GET of a die
with no dynamic address answers nothing. -/
def Claims.CommonCommandCodes : Prop :=
  ∀ s : State, s.die.busOn = true →
    (∀ a, exec (.entdaa a) s = .next { s with bus := { s.bus with dynamic := some (s.bus.dynamic.getD a) } }) ∧
    (∀ a, exec (.setdasa a) s = .next { s with bus := { s.bus with dynamic := some (s.bus.dynamic.getD a) } }) ∧
    (∀ a b, s.bus.dynamic = some b → exec (.setnewda a) s = .next { s with bus := { s.bus with dynamic := some a } }) ∧
    (∀ a, s.bus.dynamic = none → exec (.setnewda a) s = .next s) ∧
    exec .rstdaa s = .next { s with bus := { s.bus with dynamic := none } } ∧
    (s.bus.dynamic.isSome → Answers (exec .getpid s) (fun t => ∃ hi lo, t = { s with bus := { s.bus with out := [hi, lo] } } ∧
      fld (hi ++ lo) 47 33 = 0x2C51 ∧ bit (hi ++ lo) 32 = true ∧ fld (hi ++ lo) 63 48 = 0 ∧ lo = s.die.fuses.serial.setWidth 32)) ∧
    (s.bus.dynamic.isSome → exec .getbcr s = .next { s with bus := { s.bus with out := [Config.i3cReg 0] } }) ∧
    (s.bus.dynamic.isSome → exec .getdcr s = .next { s with bus := { s.bus with out := [Config.i3cReg 1] } }) ∧
    (s.bus.dynamic.isSome → exec .getstatus s = .next { s with bus := { s.bus with out := [Config.i3cReg 2] } }) ∧
    (s.bus.dynamic = none → ∀ i ∈ [Instr.getpid, .getbcr, .getdcr, .getstatus], exec i s = .next s)

/-- R473, R504, R505: a write sets the index; a read of n words returns n words, leaves the index n words on, and changes no register, no
core and no counter; the first word is the telemetry view's word at the index, unless the bus holds a latched high word for it (R19). A
word that R504 does not list reads 0, and so does one whose domain is off; VIEW shows the format, the job and the mesh domain. -/
def Claims.TelemetryReads : Prop :=
  ∀ s : State, s.die.busOn = true →
    (∀ n, exec (.telemetryIndexWrite n) s = .next { s with bus := { s.bus with index := n } }) ∧
    (∀ n : BitVec 8, Answers (exec (.telemetryRead n) s) (fun t =>
      t.bus.index = s.bus.index + n.setWidth 16 ∧ t.bus.out.length = n.toNat ∧ t.bus.dynamic = s.bus.dynamic ∧
        t.bus.armed = s.bus.armed ∧ t.tap = s.tap ∧ t.pending = s.pending ∧ t.die = { s.die with shadow := t.die.shadow } ∧
        (0 < n.toNat → (∀ off, teleReg s.bus.index.toNat = some off → (s.die.shadow.find? (fun e => e.1 == busKey off)) = none) →
          t.bus.out.head? = some (s.die.telemetry s.bus.index.toNat)))) ∧
    (∀ i, i ≠ 0 → teleReg i = none → s.die.telemetry i = 0) ∧
    (∀ i off, i ≠ 0 → teleReg i = some off → dieBlock off = some true → s.die.meshOn = false → s.die.telemetry i = 0) ∧
    (∀ i off, i ≠ 0 → teleReg i = some off → (s.die.meshOn = true ∨ dieBlock off ≠ some true) →
      s.die.telemetry i = s.die.viewDie off) ∧
    fld (s.die.telemetry 0) 31 16 = 1 ∧ bit (s.die.telemetry 0) 2 = decide (s.die.job.state ≠ 0) ∧
    bit (s.die.telemetry 0) 1 = s.die.meshOn ∧ bit (s.die.telemetry 0) 0 = false ∧ fld (s.die.telemetry 0) 15 3 = 0

/-- R473, R408: 0xE0 with 0xA5 arms for 32,768 AON ticks; 0xE1 with 0x5A under an arm in force runs the shutdown sequence, which reports
EPO and drives no THERMTRIP_N; any other data, and a fire with no arm in force, disarms and does nothing else; an arm that its 32,768 ticks
have outrun lapses, and one that they have not stays. -/
def Claims.EmergencyPowerOff : Prop :=
  ∀ s : State, s.die.busOn = true →
    exec (.epoArm 0xA5) s = .next { s with bus := { s.bus with armed := some (s.die.aon.toNat + 32768) } } ∧
    (∀ b, b ≠ 0xA5 → exec (.epoArm b) s = .next { s with bus := { s.bus with armed := none } }) ∧
    (∀ a, s.bus.armed = some a → s.die.aon.toNat ≤ a → bit (s.die.reg 0x100064) 31 = false →
      Answers (exec (.epoFire 0x5A) s) (fun t => t.bus = { s.bus with armed := none } ∧ t.tap = s.tap ∧ t.pending = s.pending ∧
        t.die.therm.shutdown = some s.die.ts.toNat ∧ t.die.pins = s.die.pins ∧ t.die.boot = s.die.boot ∧ t.die.job = s.die.job)) ∧
    (∀ b, (b ≠ 0x5A ∨ s.epoArmed = false) → exec (.epoFire b) s = .next { s with bus := { s.bus with armed := none } }) ∧
    (∀ a, s.bus.armed = some a → a < s.die.aon.toNat → exec .epoArmExpiry s = .next { s with bus := { s.bus with armed := none } }) ∧
    (∀ a, s.bus.armed = some a → s.die.aon.toNat ≤ a → exec .epoArmExpiry s = .next s)

/-- The test access port, the common command codes, the telemetry reads and the emergency power-off of the management bus. -/
def Obligations.ManagementBusAndTestPort : Prop :=
  Claims.TestAccessPort ∧ Claims.CommonCommandCodes ∧ Claims.TelemetryReads ∧ Claims.EmergencyPowerOff

/-! ### The memories of a core -/

/-- R162, R163: for every data word, every one of the 19 symbols and every error value, the decoder finds exactly that symbol and that
value in the discrepancy between stored and recomputed check symbols, and taking the error away gives the data word back; a codeword
without error is clean. -/
def Obligations.SymbolCodeCorrectsOneSymbol : Prop :=
  ∀ data : BitVec 64,
    (WErr.disc (eccCheck data ^^^ eccCheck data)).read = .clean ∧
    (∀ i e, i < 16 → 1 ≤ e → e < 16 →
      let bad := data ^^^ BitVec.ofNat 64 (put e (4 * i))
      (WErr.disc (eccCheck data ^^^ eccCheck bad)).read = .sym i e ∧ eccFix bad i e = data) ∧
    (∀ j e, j < 3 → 1 ≤ e → e < 16 → (WErr.disc (BitVec.ofNat 12 (put e (4 * j)))).read = .sym (16 + j) e ∧ eccFix data (16 + j) e = data)

/-- R162: any two flipped bits that lie in different symbols are detected: in every data word they read as uncorrectable. -/
def Obligations.SymbolCodeDetectsTwoBits : Prop :=
  (∀ data x : BitVec 64, eccCheck (data ^^^ x) = eccCheck data ^^^ eccCheck x) ∧
  (∀ i j a b, i < j → j < 19 → a < 4 → b < 4 → (WErr.disc (checkOf i (2 ^ a) ^^^ checkOf j (2 ^ b))).read = .bad)

/-- R145, R481: the lines of a memory and its banks and rows answer to each other one to one, in each layout. -/
def Claims.LinesAndBankRowsAreOneToOne : Prop :=
  ∀ (annex small : Bool) (m : Nat), m < 3 → (annex && small) = false →
    (∀ o, o < memSize small m → o % 64 = 0 →
      (bankRow annex small m o).1 < numBanks small m ∧ (bankRow annex small m o).2 < 128 ∧
      lineOf annex small m (bankRow annex small m o).1 (bankRow annex small m o).2 = o) ∧
    (∀ b r, b < numBanks small m → r < memSize small m / 64 / numBanks small m →
      bankRow annex small m (lineOf annex small m b r) = (b, r) ∧ lineOf annex small m b r < memSize small m)

/-- R160, R163 to R165: one byte written under a bit mask into a bank that is on: its enabled bits are then read, its other bits read as
a read before would have given them, whatever single-symbol or uncorrectable error the word held; every other byte of the three memories
reads as before; the memories keep their canonical form. In the cycle of the first write of its word every other port reads the byte as it stood
before, and the writing port as it now stands (R149). -/
def Claims.ByteWrittenIsReadBack : Prop :=
  ∀ (w : Wk) (port m o : Nat) (v mask : Byte), w.c.memWf = true → m < 3 →
    (w.c.annex && w.env.smallPantry) = false → o < memSize w.env.smallPantry m → (w.c.bank m (w.bankAt m o)).serves = true →
    let w' := (w.writeMem m port [(o, v, mask)]).1
    w'.c.memWf = true ∧ w'.byteAt m o = (w.byteAt m o &&& ~~~mask) ||| (v &&& mask) ∧
      ((tget OldWord.none w.c.old (w.byteKey m o / 8)).at_ ≠ w.env.cyc + 1 →
        w'.byteFor port m o = w'.byteAt m o ∧ ∀ p, p ≠ port → w'.byteFor p m o = w.byteAt m o) ∧
      ∀ m' o', m' < 3 → o' < memSize w.env.smallPantry m' → (m' ≠ m ∨ o' ≠ o) → w'.byteAt m' o' = w.byteAt m' o'

/-- R155, R160: a write to a bank that is off stores nothing, and a byte of a bank that is off reads 0x00, as does a byte outside the
buffer. -/
def Claims.BanksThatAreOff : Prop :=
  (∀ (w : Wk) (port m o : Nat) (v mask : Byte), (w.c.bank m (w.bankAt m o)).serves = false →
    (w.writeMem m port [(o, v, mask)]).1.c.mem = w.c.mem ∧ (w.writeMem m port [(o, v, mask)]).1.c.werr = w.c.werr ∧
      (w.writeMem m port [(o, v, mask)]).2.off = true) ∧
  (∀ (w : Wk) (b : Buf) (port ctx : Nat) (o : Int), b.has o = true → (w.c.bank b.mem (w.bankAt b.mem (b.base + o.toNat))).serves = false →
    (w.readBuf b port ctx [o]).2.1 = [0] ∧ (w.readBuf b port ctx [o]).2.2.off = true) ∧
  (∀ (w : Wk) (b : Buf) (port ctx : Nat) (o : Int), b.has o = false →
    (w.readBuf b port ctx [o]).2.1 = [0] ∧ (w.readBuf b port ctx [o]).2.2.oob = true) ∧
  (∀ (w : Wk) (b : Buf) (port : Nat) (o : Int) (v mask : Byte), b.has o = false →
    (w.writeBuf b port [(o, v, mask)]).1.c.mem = w.c.mem ∧ (w.writeBuf b port [(o, v, mask)]).2.oob = true)

/-- Lines and bank rows answer one to one; a byte written is read back and no other byte changes; a bank that is off reads 0 and drops writes. -/
def Obligations.CoreMemoryBytes : Prop :=
  Claims.LinesAndBankRowsAreOneToOne ∧ Claims.ByteWrittenIsReadBack ∧ Claims.BanksThatAreOff

/-! ### Service requests -/

/-- R502: the order in which a word access is checked; what the target is comes before alignment, then NO_CORE, REGION_OFF and SCRUBBING,
then the guard of a port's write, and WIN_DENIED of a core's request that no open window of the core lets pass (R157). -/
def Obligations.ServiceChecksInOrder : Prop :=
  ∀ (d : Die) (q : Req) (read : Bool),
    (∀ x, (d.place q.addr = .nothing x ∨ ∃ w, d.place q.addr = .stack w) → d.wordCheck q read = St.SVC_BAD) ∧
    (∀ off, d.place q.addr = .die off →
      (fld q.addr 1 0 ≠ 0 → d.wordCheck q read = St.MISALIGNED) ∧
      (fld q.addr 1 0 = 0 → dieBlock off = some true → d.meshOn = false → d.wordCheck q read = St.REGION_OFF) ∧
      (fld q.addr 1 0 = 0 → (dieBlock off = some true → d.meshOn = true) →
        (q.byPort = false → d.wordCheck q read = St.WIN_DENIED) ∧
        (q.byPort = true → read = true → d.wordCheck q read = St.OK) ∧
        (q.byPort = true → read = false → q.guarded (.die off) = false → d.wordCheck q read = St.OK) ∧
        (q.byPort = true → read = false → q.guarded (.die off) = true →
          d.wordCheck q read = if d.latch.orph then St.ORPHANED
            else if d.latch.held = true ∧ d.latch.port = q.port then St.OK else St.DL_NOT_HELD))) ∧
    (∀ c m off, d.place q.addr = .mem c m off →
      (fld q.addr 1 0 ≠ 0 → d.wordCheck q read = St.MISALIGNED) ∧
      (fld q.addr 1 0 = 0 →
        (isCore c = false ∨ d.rowPresent (c / 64) = false → d.wordCheck q read = St.NO_CORE) ∧
        (isCore c = true → d.rowPresent (c / 64) = true → (d.meshOn = false ∨ d.regionOn (regionOf c) = false) →
          d.wordCheck q read = St.REGION_OFF) ∧
        (d.coreOn c = true →
          (d.jobCore c = true → d.job.state = 6 → d.wordCheck q read = St.SCRUBBING) ∧
          (d.jobCore c = true → d.job.state = 5 → read = false → d.wordCheck q read = St.SCRUBBING) ∧
          (d.jobCore c = true → d.job.state = 5 → read = true → d.latch.held = true → d.latch.port = q.port → q.byPort = true →
            d.wordCheck q read = St.OK) ∧
          (∀ k, d.jobCore c = false → q.via = .core k → d.wordCheck q read =
            if (d.wkAt c).windowAllows (!read) q.rdie k.toNat m off 4 then St.OK else St.WIN_DENIED) ∧
          (d.jobCore c = false → q.byPort = true → read = true → d.wordCheck q read = St.OK) ∧
          (d.jobCore c = false → q.byPort = true → read = false →
            d.wordCheck q read = if d.latch.orph then St.ORPHANED
              else if d.latch.held = true ∧ d.latch.port = q.port then St.OK else St.DL_NOT_HELD))))

/-- R157, R501, R502: a word or line request that a check refuses has no effect and is answered with that status; a read that is refused
returns 0. Only one of a core that the windows of a core memory turn away is counted and recorded at that core. -/
def Claims.RefusedServiceRequests : Prop :=
  ∀ (s : State) (d : Die) (q : Req), Serves s d q →
    (d.wordCheck q true ≠ St.OK → exec (.read32 q) s = .next (s.withDie ((d.noteDenied q (d.wordCheck q true)).answer q false (d.wordCheck q true) [0]))) ∧
    (∀ v ls bad, d.wordCheck q false ≠ St.OK →
      Answers (exec (.write32 q v ls bad) s) (fun t => t = s.withDie ((d.noteDenied q (d.wordCheck q false)).answer q false (d.wordCheck q false) []))) ∧
    (∀ nl : Fin 8, d.lineCheck q (nl.val + 1) true ≠ St.OK →
      exec (.lineRead q nl) s = .next (s.withDie ((d.noteDenied q (d.lineCheck q (nl.val + 1) true)).answer q true (d.lineCheck q (nl.val + 1) true) []))) ∧
    (∀ ls en, d.lineCheck q ls.length false ≠ St.OK →
      exec (.lineWrite q ls en) s = .next (s.withDie ((d.noteDenied q (d.lineCheck q ls.length false)).answer q false (d.lineCheck q ls.length false) []))) ∧
    (∀ ls en, d.lineCheck q ls.length false ≠ St.OK →
      exec (.lineWriteBits q ls en) s = .next (s.withDie ((d.noteDenied q (d.lineCheck q ls.length false)).answer q false (d.lineCheck q ls.length false) []))) ∧
    (∀ st, (st ≠ St.WIN_DENIED ∨ ∀ c m off, d.place q.addr ≠ .mem c m off) → d.noteDenied q st = d) ∧
    (∀ c m off, d.place q.addr = .mem c m off →
      d.noteDenied q St.WIN_DENIED = d.onCore (BitVec.ofNat 12 c) (fun w => (w.bump 0x940 1).memErr St.WIN_DENIED))

/-- R16, R17, R19: a word that a request reads or writes in die control. A 1 written to a W1C bit clears it, unless an event of the same
cycle has set it, and a 0 leaves it; an RW field takes the value and the bits beside it stay; an RC register returns its value and is cleared,
where an event of the same cycle has not counted in it, else the value before that event, which the next read returns; a low word latches its high word for the
requester, whose next read of the high word returns the latch; any other read changes nothing. -/
def Claims.DieControlWords : Prop :=
  ∀ (s : State) (d : Die) (q : Req) (off : Nat), Serves s d q → d.place q.addr = .die off → off < 0x250000 →
    (∀ v mask, (off, mask) ∈ w1cRegs → d.wordCheck q false = St.OK →
      exec (.registerWrite q v) s =
        .next (s.withDie ((d.setReg off (d.reg off &&& ~~~(v &&& mask &&& ~~~freshOf d.fresh d.cyc off))).answer q false St.OK []))) ∧
    (∀ v, off = 0x240038 → d.wordCheck q false = St.OK →
      exec (.registerWrite q v) s =
        .next (s.withDie ((d.setReg off (mergeMask (d.reg off) v 0xFFFF)).answer q false St.OK []))) ∧
    (d.shadow.find? (fun e => e.1 == q.shadowKey (fld q.addr 47 0)) = none → d.wordCheck q true = St.OK →
      (dieRc off = true → freshOf d.fresh d.cyc off = 0 →
        exec (.rcRead q) s = .next (s.withDie ((d.setReg off 0).answer q false St.OK [(d.reg off).setWidth 64]))) ∧
      (∀ e, dieRc off = true → tget .none d.fresh off = e → e.at_ = d.cyc → e.added ≠ 0 →
        exec (.rcRead q) s = .next (s.withDie (({ d.setReg off e.added with fresh := tset .none d.fresh off ⟨d.cyc, 0, e.added⟩ }).answer q false
          St.OK [e.before.setWidth 64]))) ∧
      (Place.lowWord (.die off) = true → d.place (q.addr + 4) = .die (off + 4) →
        exec (.lowWordRead q) s = .next (s.withDie (({ d with
          shadow := d.shadow.filter (fun e : Nat × Word => e.1 != q.shadowKey (fld q.addr 47 0 + 4)) ++
            [(q.shadowKey (fld q.addr 47 0 + 4), d.viewDie (off + 4))] }).answer q false St.OK [(d.viewDie off).setWidth 64]))) ∧
      (dieRc off = false → Place.lowWord (.die off) = false →
        exec (.read32 q) s = .next (s.withDie (d.answer q false St.OK [(d.viewDie off).setWidth 64])))) ∧
    (∀ x, d.shadow.find? (fun e => e.1 == q.shadowKey (fld q.addr 47 0)) = some x → d.wordCheck q true = St.OK →
      exec (.read32 q) s = .next (s.withDie (({ d with shadow := d.shadow.filter (fun e : Nat × Word => e.1 != q.shadowKey (fld q.addr 47 0)) }).answer
        q false St.OK [x.2.setWidth 64])))

/-- R325, R328, R513: a request whose fabric address names another die is not served here. Where the routing table gives no module, it is answered
with NO_ROUTE, which PORCH_ERR records under the module it came by, or under 0 where it came by none; one that came by a module before the
die has an address is discarded with ADDR_UNSET. Where the table gives a module, a read that came by the Cellar leaves as one flit of VC2 for
that module, carrying its address and its requester, and has no answer yet. -/
def Claims.RequestsForOtherDies : Prop :=
  ∀ (s : State) (q : Req), s.die.boot.porst = false → s.die.comes q = true → s.die.mine q = false →
    let route := routeModule s.die.reg q.die (flowKey (match q.via with | .module _ => q.rdie | _ => s.die.addr) q.src.toNat)
    let every (d : Die) : Prop := exec (.read32 q) s = .next (s.withDie d) ∧ (∀ nl, exec (.lineRead q nl) s = .next (s.withDie d)) ∧
      (∀ ls en, exec (.lineWrite q ls en) s = .next (s.withDie d)) ∧ (∀ ls en, exec (.lineWriteBits q ls en) s = .next (s.withDie d))
    (∀ m, q.via = .module m → s.die.addrSet = false → every (s.die.porchErr 0 2 m St.ADDR_UNSET)) ∧
    (∀ m, q.via = .module m → s.die.addrSet = true → route = none → every ((s.die.porchErr 0 2 m St.NO_ROUTE).answer q false St.NO_ROUTE [])) ∧
    ((∀ m, q.via ≠ .module m) → route = none → every ((s.die.porchErr 0 6 0 St.NO_ROUTE).answer q false St.NO_ROUTE [])) ∧
    (q.via = .cellar → ∀ o, route.map (·.1) = some o → Answers (exec (.read32 q) s) (fun t => ∃ f : Flit,
      t = s.withDie { s.die with celIn := s.die.celIn ++ [(s.die.cyc, f)] } ∧ f.transit = some (q.die, s.die.addr, fld q.addr 31 20) ∧
      f.h.vc = 2 ∧ f.h.kind = 5 ∧ f.h.tail = true ∧ f.h.far = true ∧ f.h.dest = o % 4096 ∧ f.h.src = q.src.toNat ∧ f.word 1 = q.addr ∧
      f.word 0 = svcWord0 0x10 0 q.rdie 0 ||| BitVec.ofNat 64 (put (q.port % 2) 55)))

/-- Refused Service requests have no effect; words of die control by W1C, RW, RC and low-word latching; requests for other dies. -/
def Obligations.ServiceOnDieControl : Prop :=
  Claims.RefusedServiceRequests ∧ Claims.DieControlWords ∧ Claims.RequestsForOtherDies

/-- R158, R165, R501: words and lines of a core memory, where the banks serve and the words hold no error. A read returns the bytes,
lowest first, and leaves the core as it was but for the line accesses it puts on the DMA/stream port (R146); a write stores the word's four bytes, or the bytes of the line that its enables name, bit for
bit in LINE_WRITE_BITS, through the one write of a memory; nothing else of the block changes but the answer. -/
def Claims.CoreMemoryOverService : Prop :=
  ∀ (s : State) (d : Die) (q : Req) (c m off : Nat), Serves s d q → d.place q.addr = .mem c m off → isCore c = true →
    let w := d.wkAt c
    (d.wordCheck q true = St.OK → d.shadow.find? (fun e => e.1 == q.shadowKey (fld q.addr 47 0)) = none → w.Clean m (offsets off 4) →
      exec (.read32 q) s = .next (s.withDie ((d.setCore c (w.asked portDma m (offsets off 4))).answer q false St.OK
        [(BitVec.ofNat 32 (leNat (w.bytesAt m (offsets off 4)))).setWidth 64]))) ∧
    (∀ v ls bad, d.wordCheck q false = St.OK → w.Clean m (offsets off 4) →
      exec (.write32 q v ls bad) s = .next (s.withDie ((d.setCore c
        (w.writeMem m portDma ((offsets off 4).zip ((leBytes 4 v.toNat).map (fun b => (b, 0xFF))))).1.c).answer q false St.OK []))) ∧
    (d.lineCheck q 1 true = St.OK → w.Clean m (offsets off 64) →
      exec (.lineRead q 0) s = .next (s.withDie ((d.setCore c (w.asked portDma m (offsets off 64))).answer q true St.OK (bytesPay (w.bytesAt m (offsets off 64)))))) ∧
    (∀ (l : List (BitVec 64)) (en : BitVec 64), l.length = 8 → d.lineCheck q 1 false = St.OK → w.Clean m (offsets off 64) →
      exec (.lineWrite q [l] [en]) s = .next (s.withDie ((d.setCore c (w.writeMem m portDma
        ((((offsets off 64).zip (payBytes l)).zipIdx).filterMap (fun x => if bit en x.2 then some (x.1.1, x.1.2, 0xFF) else none))).1.c).answer
          q false St.OK []))) ∧
    (∀ l en : List (BitVec 64), l.length = 8 → en.length = 8 → d.lineCheck q 1 false = St.OK → w.Clean m (offsets off 64) →
      exec (.lineWriteBits q [l] [en]) s = .next (s.withDie ((d.setCore c (w.writeMem m portDma
        (((offsets off 64).zip ((payBytes l).zip (payBytes en))).filter (fun x => x.2.2 != 0))).1.c).answer q false St.OK [])))

/-- R161, R503: a request for a core memory whose bank wakes waits in the die with no answer; a later request of the same requester to the same
core, whatever it asks for, waits behind it. In each cycle after its banks have woken the waiting read is served, and answered with the bytes it
finds; a waiting request whose core has left meanwhile is answered with the reason. How long requests wait in State is the model's (log 33). -/
def Claims.RequestsWaitForBanks : Prop :=
  (∀ (s : State) (d : Die) (q : Req) (c m off : Nat), Serves s d q → d.place q.addr = .mem c m off →
    (∀ op : SvcOp, d.svcCheck q op = St.OK → d.bankWaits q op = true →
      d.serveNow ⟨q, op, false⟩ = { d with held := d.held ++ [⟨q, op, true⟩] }) ∧
    (d.wordCheck q true = St.OK → d.bankWaits q .read = true →
      exec (.read32 q) s = .next (s.withDie { d with held := d.held ++ [⟨q, .read, true⟩] })) ∧
    (∀ nl : Fin 8, d.lineCheck q (nl.val + 1) true = St.OK → d.bankWaits q (.lines (nl.val + 1)) = true →
      exec (.lineRead q nl) s = .next (s.withDie { d with held := d.held ++ [⟨q, .lines (nl.val + 1), true⟩] }))) ∧
  (∀ (s : State) (q : Req) (h : Held), s.die.boot.porst = false → s.die.comes q = true → s.die.mine q = true → s.die.portSends q = false → s.die.latchDue = s.die →
    h ∈ s.die.held → h.req.port = q.port → h.req.rdie = q.rdie → h.req.byPort = true → q.byPort = true →
    (s.die.place h.req.addr).code = (s.die.place q.addr).code →
      exec (.read32 q) s = .next (s.withDie { s.die with held := s.die.held ++ [⟨q, .read, false⟩] })) ∧
  (∀ (d : Die) (q : Req) (c m off : Nat), d.latchDue = d → d.held = [⟨q, .read, true⟩] → d.place q.addr = .mem c m off → isCore c = true →
    d.shadow.find? (fun e => e.1 == q.shadowKey (fld q.addr 47 0)) = none →
    (d.coreOn c = true → d.jobCore c = false → (d.wkAt c).Clean m (offsets off 4) → d.serveHeld =
      (({ d with held := [] }).setCore c ((d.wkAt c).asked portDma m (offsets off 4))).answer q false St.OK
        [(BitVec.ofNat 32 (leNat ((d.wkAt c).bytesAt m (offsets off 4)))).setWidth 64]) ∧
    (d.rowPresent (c / 64) = false → d.serveHeld = ({ d with held := [] }).answer q false St.NO_CORE [0]) ∧
    (d.rowPresent (c / 64) = true → d.meshOn = false ∨ d.regionOn (regionOf c) = false →
      d.serveHeld = ({ d with held := [] }).answer q false St.REGION_OFF [0]))

/-- Words and lines of a core memory over Service; requests that wait for a bank to wake. -/
def Obligations.CoreMemoryOverService : Prop :=
  Claims.CoreMemoryOverService ∧ Claims.RequestsWaitForBanks

/-! ### The Doorlatch -/

/-- R453: the Doorlatch at PORST_N, and its operations for a request of a control port, with the outcome of every column of the
rule's table; the status is the response's. Any other OP is refused with CTX_STATE. A refusal of CTX_STATE is recorded in CTL_PORT_ERR (R550).
Nothing but the Doorlatch and the response changes. LEASE is at least 1 here; DoorlatchTimeouts says what a LEASE of 0 does. -/
def Obligations.DoorlatchOperations : Prop :=
  (∀ (s : State) (q : Req) (wait : Bool) (wto : BitVec 8) (lease : BitVec 20), s.MayWrite q 0x1C0000 → lease ≠ 0 →
    let d := s.die
    let l := d.latch
    let reply (d : Die) (st : Status) : Host.Outcome State Fault Refusal := .next (s.withDie (d.answer q false st []))
    (l.orph = true →
      exec (.dlAcquire q wait wto lease) s = reply d St.ORPHANED ∧ exec (.dlRenew q lease) s = reply d St.ORPHANED ∧
      exec (.dlRelease q) s = reply d St.ORPHANED ∧
      exec (.dlReinit q) s = reply { d with latch := { l with orph := false, held := false } } St.OK) ∧
    (l.orph = false → exec (.dlReinit q) s = reply (d.portErr 0 q.port St.CTX_STATE) St.CTX_STATE) ∧
    (l.orph = false → l.held = false →
      exec (.dlAcquire q wait wto lease) s = reply { d with latch := { l with
        held := true, port := q.port, sdie := q.rdie, lastp := q.port, left := lease.toNat, ts := d.ts } } St.OK ∧
      exec (.dlRenew q lease) s = reply d St.DL_NOT_HELD ∧ exec (.dlRelease q) s = reply d St.DL_NOT_HELD) ∧
    (l.orph = false → l.held = true → l.port = q.port →
      exec (.dlAcquire q wait wto lease) s = reply { d with latch := { l with left := lease.toNat, sdie := q.rdie } } St.OK ∧
      exec (.dlRenew q lease) s = reply { d with latch := { l with left := lease.toNat } } St.OK ∧
      (l.waiters = [] → d.job.state ≠ 5 →
        exec (.dlRelease q) s = reply { d with latch := { l with held := false, left := 0 } } St.OK) ∧
      (∀ x xs, l.waiters = x :: xs → d.job.state ≠ 5 →
        exec (.dlRelease q) s = reply { d with
          latch := { l with held := true, left := x.lease, waiters := xs, port := x.port, sdie := x.sdie, lastp := x.port, ts := d.ts }
          resps := d.resps ++ [⟨x.req, St.OK, []⟩] } St.OK) ∧
      (d.job.state = 5 → Answers (exec (.dlRelease q) s) (fun t => t.die.job.state = 6 ∧ t.lastReply = some ⟨q, St.OK, []⟩))) ∧
    (l.orph = false → l.held = true → l.port ≠ q.port →
      (wait = false → exec (.dlAcquire q wait wto lease) s = reply d St.DL_BUSY) ∧
      (wait = true → 8 ≤ l.waiters.length → exec (.dlAcquire q wait wto lease) s = reply d St.SEM_WTFULL) ∧
      (wait = true → l.waiters.length < 8 →
        exec (.dlAcquire q wait wto lease) s = .next (s.withDie { d with latch := { l with
          waiters := l.waiters ++ [⟨q.port, q.rdie, lease.toNat, 256 * wto.toNat, decide (wto.toNat ≠ 0), q⟩] } })) ∧
      exec (.dlRenew q lease) s = reply d St.DL_NOT_HELD ∧ exec (.dlRelease q) s = reply d St.DL_NOT_HELD)) ∧
  (∀ (s : State) (d : Die) (q : Req) (v : Word), Serves s d q → d.place q.addr = .die 0x1C0000 → d.wordCheck q false = St.OK →
    (fld v 31 29 = 0 ∨ 5 ≤ fld v 31 29) → exec (.registerWrite q v) s = .next (s.withDie
      ((d.portErr 0 q.port St.CTX_STATE).answer q false St.CTX_STATE []))) ∧
  (Die.reset.latch.held = false ∧ Die.reset.latch.orph = false ∧ Die.reset.latch.lastp = 1 ∧ Die.reset.latch.waiters = [])

/-- R454, R455, R465: the lease of a held Doorlatch that reaches 0 expires: HELD is cleared, ORPH set, every waiter that has not timed out
completes with ORPHANED, a hold ends, and nothing of the cores' programs changes; a wait whose timeout has run out completes with
SEM_TIMEOUT and leaves the others queued. Neither happens before its time. A LEASE of 0 is read as 1 (the model's reading, log 103). -/
def Claims.DoorlatchTimeouts : Prop :=
  (∀ s : State, s.die.boot.porst = false → s.die.latch.held = true → s.die.latch.left = 0 →
    (∀ x ∈ s.die.latch.waiters, (x.timed && x.left == 0) = false) →
    Answers (exec .leaseExpiry s) (fun t =>
      t.die.latch = { s.die.latch with held := false, orph := true, waiters := [], ts := s.die.ts } ∧
      t.die.resps = s.die.resps ++ s.die.latch.waiters.map (fun x => ⟨x.req, St.ORPHANED, []⟩) ∧
      t.die.job.state = (if s.die.job.state = 5 then 6 else s.die.job.state) ∧ t.die.cores = s.die.cores ∧ t.die.pins = s.die.pins ∧
      (s.die.flog.length < 32 → ∃ e ∈ t.die.flog, e.src = 5 ∧ e.loc = s.die.latch.port ∧ e.st = St.ORPHANED))) ∧
  (∀ s : State, s.die.boot.porst = false → (s.die.latch.held = false ∨ s.die.latch.left ≠ 0) → exec .leaseExpiry s = .next s) ∧
  (∀ (s : State) (x : DlWait), s.die.boot.porst = false → s.die.latch.waiters.find? (fun x => x.timed && x.left == 0) = some x →
    exec .waiterTimeout s = .next (s.withDie { s.die with
      latch := { s.die.latch with waiters := s.die.latch.waiters.erase x }
      resps := s.die.resps ++ [⟨x.req, St.SEM_TIMEOUT, []⟩] })) ∧
  (∀ s : State, s.die.boot.porst = false → (∀ x ∈ s.die.latch.waiters, (x.timed && x.left == 0) = false) → exec .waiterTimeout s = .next s) ∧
  (∀ (s : State) (q : Req) (wait : Bool) (wto : BitVec 8), s.MayWrite q 0x1C0000 →
    exec (.dlAcquire q wait wto 0) s = exec (.dlAcquire q wait wto 1) s ∧ exec (.dlRenew q 0) s = exec (.dlRenew q 1) s)

/-! ### The job -/

/-- R458 to R460, R463, R465: the commands of CTL_JOB_CMD where the job's state allows them: PAUSE sets PAUSEP; RESUME clears it, or from
PAUSED makes the job RUNNING and arrives in GO; UNLOAD closes every remote-access window of the job cores (R159) and, like SCRUB where a kill left a hold, starts the
scrub; START of a loaded
job whose tables have not changed makes it RUNNING and arrives in GO. -/
def Claims.JobCommands : Prop :=
  ∀ (s : State) (q : Req), s.MayWrite q 0x1C0040 →
    let d := s.die
    let reply (d : Die) (st : Status) : Host.Outcome State Fault Refusal := .next (s.withDie (d.answer q false st []))
    (d.job.state = 2 → exec (.jobPause q) s = reply { d with job := { d.job with pausep := true } } St.OK) ∧
    (d.job.state = 2 → d.job.pausep = true → exec (.jobResume q) s = reply { d with job := { d.job with pausep := false } } St.OK) ∧
    (d.job.state = 3 → Answers (exec (.jobResume q) s) (fun t => t.die.job = { d.job with state := 2, pausep := false } ∧
      t.die.span = { d.span with arrived := true } ∧ t.die.regs = d.regs ∧ t.die.cores = d.cores ∧ t.lastReply = some ⟨q, St.OK, []⟩)) ∧
    (d.job.state = 1 ∨ d.job.state = 4 → d.span.restarting = none → exec (.jobUnload q) s = reply { d.windowsClosed with
      job := { d.job with state := 6, scrubAt := d.cyc, scrubTs := d.ts.toNat, pausep := false } } St.OK) ∧
    (d.job.state = 5 → exec (.jobScrub q) s = reply { d with
      job := { d.job with state := 6, scrubAt := d.cyc, scrubTs := d.ts.toNat, pausep := false } } St.OK) ∧
    (∀ lines bad, d.job.state = 1 → d.rf 0x180018 31 16 = d.rf 0x80008 15 0 → d.rf 0x180018 15 0 = d.rf 0x10004 15 0 →
      Answers (exec (.jobStart q lines bad) s) (fun t => t.die.job = { d.job with state := 2, pausep := false } ∧
        t.die.span.arrived = true ∧ t.die.span.stop = none ∧ t.die.span.failed = [] ∧ t.die.latch = d.latch ∧
        t.lastReply = some ⟨q, St.OK, []⟩))

/-- R461, R465: KILL of a job that is loaded, running, paused or stopped puts it on hold where its header grants the post-mortem hold and
starts the scrub otherwise; a KILL in HOLD ends the hold. -/
def Claims.JobKill : Prop :=
  ∀ (s : State) (q : Req), s.MayWrite q 0x1C0040 →
    (1 ≤ s.die.job.state → s.die.job.state ≤ 4 → Answers (exec (.jobKill q) s) (fun t =>
      t.die.job.state = (if s.die.job.pmh then 5 else 6) ∧ t.die.job.image = s.die.job.image ∧ t.die.latch = s.die.latch ∧
      t.die.fuses = s.die.fuses ∧ t.die.boot = s.die.boot ∧ t.bus = s.bus ∧ t.tap = s.tap ∧ t.lastReply = some ⟨q, St.OK, []⟩)) ∧
    (s.die.job.state = 5 → exec (.jobKill q) s = .next (s.withDie (({ s.die with job := { s.die.job with
      state := 6, scrubAt := s.die.cyc, scrubTs := s.die.ts.toNat, pausep := false } }).answer q false St.OK [])))

/-- R458, R550: a command of CTL_JOB_CMD that the job's state does not allow changes nothing but CTL_PORT_ERR and the fault log, and
completes with CTX_STATE. -/
def Claims.JobCommandsRefused : Prop :=
  ∀ (s : State) (q : Req) (lines : List (BitVec 512)) (bad : Bool), s.MayWrite q 0x1C0040 →
    let n := s.die.job.state
    let no : Host.Outcome State Fault Refusal := .next (s.withDie ((s.die.portErr 0 q.port St.CTX_STATE).answer q false St.CTX_STATE []))
    (n ≠ 1 → n ≠ 4 → exec (.jobStart q lines bad) s = no) ∧
    (n ≠ 2 → exec (.jobPause q) s = no) ∧
    (n ≠ 3 → (n = 2 → s.die.job.pausep = false) → exec (.jobResume q) s = no) ∧
    (n = 6 ∨ (n = 0 ∧ s.die.loading = false) → exec (.jobKill q) s = no) ∧
    (n ≠ 1 → n ≠ 4 → exec (.jobUnload q) s = no) ∧
    (n ≠ 5 → exec (.jobScrub q) s = no)

/-- R463: when the scrub completes every core that the image names holds the state of a scrubbed core, a core it does not name is as it
was, and the die has no job; without a scrub in progress nothing happens. -/
def Claims.ScrubComplete : Prop :=
  ∀ s : State, s.die.boot.porst = false →
    (s.die.job.state = 6 → Answers (exec .scrubComplete s) (fun t =>
      t.die.job = .none ∧ t.die.span = .reset ∧ t.die.spanPhase = 0 ∧ t.die.loadState = 0 ∧
      (∀ c ∈ s.die.jobCores, t.die.core c.toNat = (s.die.core c.toNat).scrubbed) ∧
      (∀ n, (∀ c ∈ s.die.jobCores, c.toNat ≠ n) → t.die.core n = s.die.core n ∧ t.die.router n = s.die.router n) ∧
      (∀ c ∈ s.die.jobCores, (t.die.router c.toNat).shadow = none) ∧ t.die.latch = s.die.latch ∧ t.die.mods = s.die.mods)) ∧
    (s.die.job.state ≠ 6 → exec .scrubComplete s = .next s)

/-- Lease expiry and wait timeouts; the commands of a job where its state allows and forbids them; KILL, the hold and the end of the scrub. -/
def Obligations.JobControlAndScrub : Prop :=
  Claims.DoorlatchTimeouts ∧ Claims.JobCommands ∧ Claims.JobKill ∧ Claims.JobCommandsRefused ∧ Claims.ScrubComplete

/-- R440, R441: GO starts a load in READY with the site committed and no load or job in the way, and is refused otherwise: with SITE_STALE
where only the site is missing, with CTX_STATE elsewhere; a write without GO does nothing. A read of the image that fails ends the load
REFUSED with the hub's status; an image that passes the plan check is held as the job's, its regions woken, in state LOADING until they
are awake. -/
def Obligations.JobLoad : Prop :=
  (∀ (s : State) (q : Req) (v : Word), s.MayWrite q 0x18000C →
    let d := s.die
    let reply (d : Die) (st : Status) : Host.Outcome State Fault Refusal := .next (s.withDie (d.answer q false st []))
    (bit v 31 = false → exec (.loadGo q v) s = reply d St.OK) ∧
    (bit v 31 = true → d.phase = 10 → bit (d.reg 0x140034) 31 = true → d.loadState = 0 ∨ d.loadState = 6 → d.job.state = 0 →
      exec (.loadGo q v) s = reply (d.setNat 0x180010 1) St.OK) ∧
    (bit v 31 = true → d.phase = 10 → bit (d.reg 0x140034) 31 = false →
      exec (.loadGo q v) s = reply (d.loadErr St.SITE_STALE 0) St.SITE_STALE) ∧
    (bit v 31 = true → d.phase ≠ 10 → exec (.loadGo q v) s = reply (d.loadErr St.CTX_STATE 0) St.CTX_STATE) ∧
    (bit v 31 = true → bit (d.reg 0x140034) 31 = true → (¬ (d.loadState = 0 ∨ d.loadState = 6) ∨ d.job.state ≠ 0) →
      exec (.loadGo q v) s = reply (d.loadErr St.CTX_STATE 0) St.CTX_STATE)) ∧
  (∀ (s : State) (st : Status) (img : List Word), s.die.meshOn = true →
    (s.die.loadState ≠ 1 → exec (.loadReadDone st img) s = .next s) ∧
    (s.die.loadState = 1 → st ≠ St.OK → Answers (exec (.loadReadDone st img) s) (fun t =>
      t.die.job = .none ∧ t.die.loadState = 6 ∧ t.die.cores = s.die.cores)) ∧
    (s.die.loadState = 1 → st = St.OK → (s.die.planCheck img 1).1 = St.OK →
      (∃ c : CoreCode, isCore c.toNat = true ∧ bit (nth 0 (useWords img) (coreIndex c.toNat / 32)) (coreIndex c.toNat % 32) = true ∧
        s.die.regionOn (regionOf c.toNat) = false) →
      Answers (exec (.loadReadDone st img) s) (fun t =>
        t.die.job.image = img ∧ t.die.job.use = useWords img ∧ t.die.job.state = 0 ∧ t.die.loadState = 4)))

/-! ### Spans -/

/-- R351, R352: a quiescent core of the span at its threshold arrives, its semaphore less THRESH and ARR set; a core that is at its
threshold but has not been quiescent for QLIM cycles, and a span that has outrun its watchdog, mark the span dirty with their statuses. Nothing
else changes. -/
def Claims.SpanArrivalsAndWatchdogs : Prop :=
  (∀ (s : State) (c : CoreCode) (p : Nat), s.die.coreOn c.toNat = true → s.die.spanPhase = 1 →
    bit ((s.coreAt c).reg 0xE000) 31 = true → (s.coreAt c).spanArr = false → (s.coreAt c).quiescent s.die.cyc = true →
    (s.coreAt c).spanDone = some p →
    exec (.coreSpanArrival c) s = .next (s.withCore c { s.coreAt c with
      sems := ((s.wk c).consume p (fld ((s.coreAt c).reg 0xE000) 15 0)).c.sems, spanArr := true, quiet := 0 })) ∧
  (∀ (s : State) (c : CoreCode), s.die.coreOn c.toNat = true →
    ((s.coreAt c).spanArr = true ∨ (s.coreAt c).quiescent s.die.cyc = false ∨ (s.coreAt c).spanDone = none) →
    exec (.coreSpanArrival c) s = .next s) ∧
  (∀ (s : State) (c : CoreCode), s.die.coreOn c.toNat = true → s.die.spanPhase = 1 → bit ((s.coreAt c).reg 0xE000) 31 = true →
    (s.coreAt c).spanArr = false → 0 < (s.coreAt c).quiet → s.die.rf 0xC0018 15 0 ≤ (s.coreAt c).quiet →
    exec (.spanQuietExpiry c) s = .next (s.withDie ((s.die.setCore c.toNat { s.coreAt c with quiet := 0 }).spanFault 0 c.toNat
      St.SPAN_QUIET))) ∧
  (∀ s : State, s.die.meshOn = true → s.die.spanPhase = 1 → s.die.span.wdog = false → (s.die.reg 0xC0014).toNat ≠ 0 →
    s.die.span.goTs + 100 * (s.die.reg 0xC0014).toNat < s.die.ts.toNat →
    exec .spanWdogExpiry s = .next (s.withDie (({ s.die with span := { s.die.span with wdog := true } }).spanFault 6 0 St.SPAN_WDOG))) ∧
  (∀ s : State, (s.die.reg 0xC0014).toNat = 0 → exec .spanWdogExpiry s = .next s)

/-- R356, R357: the die arrives in FENCE exactly when every core of the span has arrived, the span is not dirty, and every link flit, packet
and hub request of the die is acknowledged; arriving changes no register and no core. -/
def Claims.FenceClears : Prop :=
  ∀ s : State, s.die.meshOn = true → s.die.spanPhase = 1 → s.die.span.arrived = false → s.die.spanCores ≠ [] →
    (((∀ c ∈ s.die.spanCores, (s.coreAt c).spanArr = true) ∧ bit (s.die.reg 0xC0028) 31 = false ∧ s.die.drained = true) →
      Answers (exec .fenceArrival s) (fun t => t.die.span = { s.die.span with arrived := true } ∧ t.die.regs = s.die.regs ∧
        t.die.cores = s.die.cores ∧ t.die.routers = s.die.routers ∧ t.die.flog = s.die.flog)) ∧
    (((∃ c ∈ s.die.spanCores, (s.coreAt c).spanArr = false) ∨ bit (s.die.reg 0xC0028) 31 = true ∨ s.die.drained = false) →
      exec .fenceArrival s = .next s)

/-- R358, R460: the commit release, where no OVER flag is set: ACTIVE is inverted, the span number rises by 1, TRIES is 0, the router of
every core of the span holds its shadow in codewords (R354), every ARR is cleared, the phase is GO; the die arrives in it unless a stop or a pause is pending, and
a pending pause makes the job PAUSED. Without the release nothing commits. -/
def Claims.CommitRelease : Prop :=
  ∀ s : State, s.die.meshOn = true → s.die.spanPhase = 1 →
    (s.die.Released → s.die.anyOver = false → Answers (exec .commitRelease s) (fun t =>
      t.die.reg 0xC0004 = s.die.reg 0xC0004 + 1 ∧ bit (t.die.reg 0xC0000) 30 = !bit (s.die.reg 0xC0000) 30 ∧ t.die.rf 0xC0000 15 12 = 0 ∧
      t.die.spanPhase = 2 ∧ (∀ c ∈ s.die.spanCores, (t.die.router c.toNat).shadow = some (codewords ((s.coreAt c).shadow s.die.barGens))) ∧
      (∀ c : CoreCode, t.die.core c.toNat = { s.coreAt c with spanArr := false }) ∧ t.die.span.stop = s.die.span.stop ∧
      t.die.job = (if s.die.span.stop = none ∧ s.die.job.pausep = true then { s.die.job with state := 3 } else s.die.job) ∧
      t.die.span.arrived = (s.die.span.stop.isNone && !s.die.job.pausep) ∧ t.die.latch = s.die.latch)) ∧
    (s.die.full31 = false → exec .commitRelease s = .next s)

/-- R357, R358, R362: the release of GO and the release of RESTORE start an attempt: phase FENCE, not yet arrived, its time taken, no time
dependence noted, a mark held since before its first one; after RESTORE TRIES has risen by 1 and the span number has not. -/
def Claims.AttemptsStart : Prop :=
  ∀ s : State, s.die.meshOn = true → s.die.Released →
    (s.die.spanPhase = 2 → Answers (exec .goRelease s) (fun t =>
      t.die.spanPhase = 1 ∧ t.die.span = { s.die.span with arrived := false, held := none, goTs := s.die.ts.toNat, goCyc := s.die.cyc,
                                                            wdog := false, rolling := false } ∧
      t.die.reg 0xC0004 = s.die.reg 0xC0004 ∧ t.die.rf 0xC0000 15 12 = s.die.rf 0xC0000 15 12 ∧ t.die.job = s.die.job ∧
      (∀ m, s.die.span.held = some m → m.src < 8 → m.loc < 4096 → t.die.reg 0xC0028 = m.word))) ∧
    (s.die.spanPhase = 4 → Answers (exec .restoreRelease s) (fun t =>
      t.die.spanPhase = 1 ∧ t.die.span = { s.die.span with arrived := false, held := none, goTs := s.die.ts.toNat, goCyc := s.die.cyc,
                                                            wdog := false, rolling := false } ∧
      t.die.reg 0xC0004 = s.die.reg 0xC0004 ∧ t.die.rf 0xC0000 15 12 = (s.die.rf 0xC0000 15 12 + 1) % 16 ∧ t.die.job = s.die.job))

/-- Span arrivals and watchdogs, the fence, the commit release and the start of an attempt. -/
def Obligations.SpanAttempts : Prop :=
  Claims.SpanArrivalsAndWatchdogs ∧ Claims.FenceClears ∧ Claims.CommitRelease ∧ Claims.AttemptsStart

/-- R359, R362: a die whose running attempt is dirty before its arrival, or that receives an orphaned release in FENCE, enters DRAIN with its
span number unchanged; condition 1 or 6 broken makes its stop pending; a die in FENCE with neither does not roll back. The release of
DRAIN brings the die to RESTORE; a committed half that cannot be read makes condition 3's stop pending. A die with a broken condition does not
arrive in DRAIN, so nothing is released there. -/
def Claims.RollbackSteps : Prop :=
  (∀ s : State, s.die.meshOn = true → s.die.spanPhase = 1 →
    ((bit (s.die.reg 0xC0028) 31 = true ∧ s.die.span.arrived = false) ∨ (s.die.bar 31).down = some true →
      Answers (exec .rollbackEnter s) (fun t =>
        t.die.spanPhase = 3 ∧ t.die.span.arrived = false ∧ t.die.span.rolling = true ∧ t.die.reg 0xC0004 = s.die.reg 0xC0004 ∧
        (∀ x, s.die.brokenEarly = some x → t.die.span.stop = some x) ∧ (s.die.brokenEarly = none → t.die.span.stop = s.die.span.stop) ∧
        t.die.job = s.die.job ∧ t.die.latch = s.die.latch)) ∧
    ((bit (s.die.reg 0xC0028) 31 = false ∨ s.die.span.arrived = true) → (s.die.bar 31).down ≠ some true →
      exec .rollbackEnter s = .next s)) ∧
  (∀ (s : State) (lines : List (BitVec 512)), s.die.meshOn = true → s.die.spanPhase = 3 → s.die.Released →
    s.die.span.failed = [] → Answers (exec (.drainRelease lines true) s) (fun t =>
      t.die.spanPhase = 4 ∧ t.die.span.arrived = false ∧ t.die.span.stop = some (3, St.GUAR_ATTIC) ∧ t.die.cores = s.die.cores ∧
      t.die.job = s.die.job)) ∧
  (∀ (s : State) (lines : List (BitVec 512)) (bad : Bool), s.die.span.arrived = false → s.die.broken ≠ none → s.die.spanPhase = 3 →
    Answers (exec (.drainRelease lines bad) s) (fun t => t.die.regs = s.die.regs ∧ t.die.cores = s.die.cores ∧ t.die.span = s.die.span))

/-- R375, R376, R377: a stop that is pending after the commit, a condition broken while recovering, or a stop that channel 31 brings, stops the job: the
condition and status in CTL_SPAN_STOP, the last committed span's number in CTL_SPAN_STOPNUM, PHASE STOPPED, a running or paused job
STOPPED; with none nothing happens, and so in FENCE and in IDLE. -/
def Claims.JobStops : Prop :=
  ∀ (s : State) (m : Fin 48), s.die.meshOn = true → s.die.boot.porst = false →
    (∀ cond st, 2 ≤ s.die.spanPhase → s.die.spanPhase ≤ 4 →
      ((s.die.bar 31).down ≠ some true ∧ (if s.die.spanPhase = 2 then s.die.span.stop else s.die.broken) = some (cond, st)) ∨
        ((s.die.bar 31).down = some true ∧ cond = 7 ∧ st = St.SPAN_PEER) →
      Answers (exec (.jobStop m) s) (fun t =>
        t.die.spanPhase = 5 ∧ t.die.reg 0xC002C = BitVec.ofNat 32 (put 1 31 + put cond 28 + st.toNat) ∧
        t.die.reg 0xC0030 = s.die.reg 0xC0004 - 1 ∧ bit (t.die.reg 0x1C0050) 5 = true ∧ t.die.span.stop = none ∧
        t.die.job = (if s.die.job.state = 2 ∨ s.die.job.state = 3 then { s.die.job with state := 4, pausep := false } else s.die.job) ∧
        t.die.latch = s.die.latch)) ∧
    ((s.die.spanPhase < 2 ∨ 4 < s.die.spanPhase ∨ ((s.die.bar 31).down ≠ some true ∧ (if s.die.spanPhase = 2 then s.die.span.stop else s.die.broken) = none)) →
      exec (.jobStop m) s = .next s)

/-- The steps of a rollback and the stops of a job. -/
def Obligations.RollbackAndStops : Prop :=
  Claims.RollbackSteps ∧ Claims.JobStops

/-- R361, R366: the log die's replies, with no START waiting. OK answers the message; LOG_BAD to MARK is a late report, condition 2; any
other answer breaks condition 6, and with it whatever stop was pending; a MARK that is not answered in time is only recorded, a HOLD or REWIND breaks condition 6; a
reply to nothing is nothing. -/
def Claims.LogDieReplies : Prop :=
  ∀ s : State, s.die.meshOn = true → s.die.span.restarting = none →
    let gone (lop : Nat) : Span := { s.die.span with log := s.die.span.log.filter (fun x : Nat × Nat × Nat => x.1 != lop) }
    let reply (lop st : Nat) : Instr := if lop = 1 then .markReply st else if lop = 2 then .holdReply st else .rewindReply st [] false
    (∀ lop st, 1 ≤ lop → lop ≤ 3 → s.die.span.log.any (fun x => x.1 == lop) = true →
      (logStatus st = St.OK → exec (reply lop st) s = .next (s.withDie { s.die with
        span := { gone lop with logOk := s.die.span.logOk ++ [lop] } })) ∧
      (lop = 1 → logStatus st = St.LOG_BAD → exec (reply lop st) s = .next (s.withDie
        ((({ s.die with span := gone lop }).report 1 6 0 St.LOG_BAD 0).pendStop 2 St.GUAR_LATE))) ∧
      (logStatus st ≠ St.OK → (lop ≠ 1 ∨ logStatus st ≠ St.LOG_BAD) → exec (reply lop st) s = .next (s.withDie
        ((({ s.die with span := gone lop }).report (if logStatus st = St.LOG_LOST then 2 else 1) 6 0 (logStatus st) 0).breaks 6 St.GUAR_LOG)))) ∧
    (∀ lop st, s.die.span.log.any (fun x => x.1 == lop) = false → 1 ≤ lop → lop ≤ 3 → exec (reply lop st) s = .next s) ∧
    (∀ (lop : Fin 3) (n limit : Nat), s.die.span.log.find? (fun x => x.1 == lop.val + 1) = some (lop.val + 1, n, limit) →
      (s.die.ts.toNat < limit → exec (.logReplyTimeout lop) s = .next s) ∧
      (limit ≤ s.die.ts.toNat → lop = 0 → exec (.logReplyTimeout lop) s = .next (s.withDie
        (({ s.die with span := gone 1 }).report 0 6 0 St.LOG_TIMEOUT 0))) ∧
      (limit ≤ s.die.ts.toNat → lop ≠ 0 → exec (.logReplyTimeout lop) s = .next (s.withDie
        (({ s.die with span := gone (lop.val + 1) }).breaks 6 St.GUAR_LOG)))) ∧
    (∀ d : Die, d.pendStop 2 St.GUAR_LATE = (match d.span.stop with
      | some (0, _) => { d with span := { d.span with stop := some (2, St.GUAR_LATE) } }
      | some _ => d
      | none => { d with span := { d.span with stop := some (2, St.GUAR_LATE) } })) ∧
    (∀ (d : Die) (cond : Nat) (st : Status), d.breaks cond st = { d with span := { d.span with stop := some (cond, st) } })

/-- R360, R361, R368, R376: the commands of CTL_SPAN_CMD while a span runs, commits or recovers: STOP makes a stop request pending behind
any stop already pending, LATE a late report before any stop request, ROLL marks the running span dirty with SPAN_SWROLL, FAIL of a job core
declares it failed and marks the span dirty with CORE_FAILED. In any other phase they change nothing; each is answered OK. -/
def Claims.SpanCommands : Prop :=
  ∀ (s : State) (q : Req) (c : CoreCode), s.MayWrite q 0xC0020 →
    let d := s.die
    let ok (d : Die) : Host.Outcome State Fault Refusal := .next (s.withDie (d.answer q false St.OK []))
    (d.spanLive = true →
      (d.span.stop = none → exec (.spanStop q) s = ok { d with span := { d.span with stop := some (0, St.SPAN_SWSTOP) } }) ∧
      (d.span.stop ≠ none → exec (.spanStop q) s = ok d) ∧
      (∀ x, (d.span.stop = none ∨ d.span.stop = some (0, x)) →
        exec (.spanLate q) s = ok { d with span := { d.span with stop := some (2, St.GUAR_LATE) } }) ∧
      (∀ k x, d.span.stop = some (k, x) → k ≠ 0 → exec (.spanLate q) s = ok d) ∧
      exec (.spanRoll q) s = ok ((d.dirty 5 q.port St.SPAN_SWROLL).report 1 5 q.port St.SPAN_SWROLL 0) ∧
      (d.jobCore c.toNat = true → d.span.failed.contains c.toNat = false → exec (.spanFail q c) s =
        ok ((({ d with span := { d.span with failed := d.span.failed ++ [c.toNat] } }).dirty 0 c.toNat St.CORE_FAILED).report 1 5 q.port
          St.CORE_FAILED 0)) ∧
      (d.jobCore c.toNat = false → exec (.spanFail q c) s = ok d)) ∧
    (d.spanLive = false → ∀ i ∈ [Instr.spanStop q, .spanLate q, .spanRoll q, .spanFail q c], exec i s = ok d)

/-- The log die's replies and the commands of CTL_SPAN_CMD. -/
def Obligations.LogRepliesAndSpanCommands : Prop :=
  Claims.LogDieReplies ∧ Claims.SpanCommands

/-! ### The Thermostat -/

/-- R387 to R389, R406: at a control point (every 100 µs) at most one step starts, whatever ceilings stand, and the running P-state does not
move by it: a step up or a correction of the voltage waits for the regulator, a step down glides first. While a step runs, or before the
first site commit, none starts. A hot die's throttle ceiling lies one below the running P-state. Before the next control point nothing
happens. -/
def Claims.ControlPoint : Prop :=
  ∀ s : State, s.die.meshOn = true →
    (s.die.ts.toNat / 10000 ≤ s.die.therm.control → exec .thermostatControlPoint s = .next s) ∧
    (s.die.therm.control < s.die.ts.toNat / 10000 → Answers (exec .thermostatControlPoint s) (fun t =>
      t.die.therm.control = s.die.ts.toNat / 10000 ∧ t.die.pstate = s.die.pstate ∧ t.die.cores = s.die.cores ∧ t.die.job = s.die.job ∧
      t.die.latch = s.die.latch ∧ t.die.pins = s.die.pins ∧
      (s.die.therm.hot = true → t.die.therm.thermCeil = s.die.pstate - 1) ∧
      (s.die.boot.firstCommit = false ∨ s.die.therm.step ≠ .idle → t.die.therm.step = s.die.therm.step) ∧
      (s.die.boot.firstCommit = true → s.die.therm.step = .idle →
        t.die.therm.step = .idle ∨ (∃ up dv, t.die.therm.step = .vout up 0 dv) ∨ t.die.therm.step = .glide false s.die.cyc)))

/-- R404, R405: at the end of a phase bin of a learning die with a running job the next bin begins, the counts start afresh, and each region's
duty ceiling for the ended bin is 16 when the floor is not met; otherwise it moves as the measured slack says (the rate is the model's
choice, log 114) and stays from 4 to 16. Without a bin's end nothing happens. -/
def Claims.LearningBins : Prop :=
  (∀ s : State, s.die.meshOn = true → (bit (s.die.reg 0x100000) 31 = false ∨ s.die.job.state ≠ 2) → exec .learnBin s = .next s) ∧
  (∀ s : State, s.die.meshOn = true → bit (s.die.reg 0x100000) 31 = true → s.die.job.state = 2 → s.die.therm.bin = 15 →
    s.die.spanPhase ≠ 1 →
    Answers (exec .learnBin s) (fun t => t.die.therm.bin = 0 ∧ t.die.therm.idle = [] ∧ t.die.therm.busy = [] ∧ t.die.job = s.die.job ∧
      (s.die.therm.unmet ≠ none → ∀ r, r < 16 → tget 16 t.die.therm.duty (16 * r + 15) = 16) ∧
      (∀ r b, r < 16 → b < 15 → tget 16 t.die.therm.duty (16 * r + b) = tget 16 s.die.therm.duty (16 * r + b)))) ∧
  (∀ old idle total, 4 ≤ old → old ≤ 16 → idle ≤ total → 4 ≤ learnCeil old idle total ∧ learnCeil old idle total ≤ 16)

/-- R406: a sample, taken every 10 µs, stores the readings of the 36 sensors; the die is hot from a hottest reading at its limit (at most
105 °C) until one 3 °C below it. -/
def Claims.SensorSamples : Prop :=
  ∀ (s : State) (rs : List (BitVec 16)), s.die.meshOn = true → rs.length = 36 →
    let lim : Int := 4 * (min 105 (s.die.rf 0x100018 7 0) : Nat)
    (s.die.ts.toNat / 1000 ≤ s.die.therm.sampled → exec (.sensorSample rs) s = .next s) ∧
    (s.die.therm.sampled < s.die.ts.toNat / 1000 → Answers (exec (.sensorSample rs) s) (fun t =>
      t.die.therm.sampled = s.die.ts.toNat / 1000 ∧ (∀ i, i < 36 → t.die.reg (0x100200 + 4 * i) = (nth 0 rs i).setWidth 32) ∧
      ((∃ r ∈ rs, lim ≤ r.toInt) → t.die.therm.hot = true) ∧
      ((∀ r ∈ rs, r.toInt < lim - 12) → t.die.therm.hot = false) ∧
      ((∀ r ∈ rs, r.toInt < lim) → (∃ r ∈ rs, lim - 12 ≤ r.toInt) → t.die.therm.hot = s.die.therm.hot) ∧
      t.die.cores = s.die.cores ∧ t.die.pstate = s.die.pstate ∧ t.die.job = s.die.job))

/-- The control point, the learning bins and the sensor samples. -/
def Obligations.ThermostatControl : Prop :=
  Claims.ControlPoint ∧ Claims.LearningBins ∧ Claims.SensorSamples

/-- R381, R387, R388: the parts of a P-state step outside phase POWER. The regulator's acknowledgement starts the settling time; the third
missing one ends the step with AVS_ERR, and after a step up the higher P-states are unavailable; 1 µs + |ΔV| ÷ SLEW later a step up glides and
a step down ends; a glide's 1,024 cycles make the target P-state current, after which a step down lowers the voltage. Before its time each does
nothing. -/
def Claims.PowerStateSteps : Prop :=
  ∀ (s : State) (up : Bool) (n dv : Nat), s.die.boot.porst = false → s.die.phase ≠ 2 →
    (s.die.therm.step = .vout up n dv →
      exec (.avsVoutAck true) s = .next (s.withDie { s.die with therm := { s.die.therm with
        step := .settle up s.die.ts.toNat dv, avsCeil := 15 } }) ∧
      (n < 2 → exec (.avsVoutAck false) s = .next (s.withDie { s.die with therm := { s.die.therm with step := .vout up (n + 1) dv } })) ∧
      (2 ≤ n → Answers (exec (.avsVoutAck false) s) (fun t => t.die.therm.step = .idle ∧
        t.die.therm.avsCeil = (if up then s.die.pstate else s.die.therm.avsCeil) ∧
        (s.die.flog.length < 32 → ∃ e ∈ t.die.flog, e.sev = 0 ∧ e.src = 6 ∧ e.st = St.AVS_ERR)))) ∧
    (s.die.therm.step = .settle up n dv →
      (s.die.ts.toNat < n + 100 + ceilDiv (100 * dv) (max 1 (s.die.rf 0x10001C 15 8)) → exec .avsSettleDone s = .next s) ∧
      (n + 100 + ceilDiv (100 * dv) (max 1 (s.die.rf 0x10001C 15 8)) ≤ s.die.ts.toNat →
        Answers (exec .avsSettleDone s) (fun t => t.die.therm.step = (if up then .glide true s.die.cyc else .idle) ∧
          t.die.therm.avsCeil = s.die.therm.avsCeil ∧ t.die.flog = s.die.flog ∧ t.die.cores = s.die.cores))) ∧
    (s.die.therm.step = .glide up n → s.die.meshOn = true →
      (s.die.cyc < n + 1024 → exec .glideComplete s = .next s) ∧
      (n + 1024 ≤ s.die.cyc → Answers (exec .glideComplete s) (fun t => t.die.pstate = s.die.rf 0x100020 7 4 ∧
        (up = true → t.die.therm.step = .idle) ∧ (up = false → ∃ v, t.die.therm.step = .vout false 0 v) ∧ t.die.cores = s.die.cores)))

/-- R390, R391: the region control. A write is refused with CTX_STATE when it would put to sleep a region in which a context runs or
drains; otherwise the bits are taken, and the lowest region whose state differs from its bit begins to wake. A region that has waked is on
with no core state, one that has gone to sleep is off with none. -/
def Claims.RegionChanges : Prop :=
  (∀ (s : State) (v : Word), s.die.meshOn = true →
    ((∃ r, r < 16 ∧ bit (s.die.reg 0x100030) r = true ∧ bit v r = false ∧ s.die.regionBusy r = true) →
      exec (.regionCtlWrite v) s = .next (s.withDie (s.die.thmErr 0 St.CTX_STATE))) ∧
    ((∀ r, r < 16 → bit (s.die.reg 0x100030) r = true → bit v r = false → s.die.regionBusy r = false) →
      (∀ r, r < 16 → s.die.region r = .off ∨ s.die.region r = .on) →
      ((∀ r, r < 16 → bit v r = s.die.regionOn r) →
        exec (.regionCtlWrite v) s = .next (s.withDie (s.die.setReg 0x100030 (v &&& 0xFFFF)))) ∧
      (∀ r, r < 16 → bit v r = true → s.die.regionOn r = false → (∀ r', r' < r → bit v r' = s.die.regionOn r') →
        exec (.regionCtlWrite v) s = .next (s.withDie ((s.die.setReg 0x100030 (v &&& 0xFFFF)).setRegion r
          (.waking s.die.ts.toNat s.die.cyc)))))) ∧
  (∀ (s : State) (r : Fin 16) (t0 c0 : Nat), s.die.meshOn = true → s.die.region r.val = .waking t0 c0 → s.die.loadState ≠ 4 →
    ((s.die.ts.toNat - t0) * (2 * (6 + s.die.pstate)) < 1600 * (2 * (6 + s.die.pstate)) + 1537 * 3 →
      exec (.regionWakeComplete r) s = .next s) ∧
    (1600 * (2 * (6 + s.die.pstate)) + 1537 * 3 ≤ (s.die.ts.toNat - t0) * (2 * (6 + s.die.pstate)) →
      Answers (exec (.regionWakeComplete r) s) (fun t => t.die.job = s.die.job ∧ t.die.latch = s.die.latch ∧
        (bit (s.die.reg 0x100030) r.val = true → t.die.regionOn r.val = true ∧
          ∀ c : CoreCode, regionOf c.toNat = r.val → t.die.core c.toNat = .reset)))) ∧
  (∀ (s : State) (r : Fin 16) (t0 c0 : Nat), s.die.meshOn = true → s.die.region r.val = .sleeping t0 c0 →
    Answers (exec (.regionSleepComplete r) s) (fun t => t.die.regionOn r.val = false ∧ t.die.job = s.die.job ∧
      ∀ c : CoreCode, regionOf c.toNat = r.val → t.die.core c.toNat = .reset))

/-- The parts of a P-state step, and the waking and sleeping of regions. -/
def Obligations.PowerStatesAndRegions : Prop :=
  Claims.PowerStateSteps ∧ Claims.RegionChanges

/-- R397, R399, R402, R403: an interval of the envelope moves the issue duty by at most one step within 1 to 16 and comes once; the
P-state, the job, the latch and the pins stay. Between intervals nothing happens. -/
def Claims.EnvelopeIntervals : Prop :=
  ∀ s : State, s.die.meshOn = true →
    (s.die.cyc / 64 ≤ s.die.therm.interval → exec .envelopeInterval s = .next s) ∧
    (s.die.therm.interval < s.die.cyc / 64 → 1 ≤ s.die.rf 0x100020 20 16 → s.die.rf 0x100020 20 16 ≤ 16 →
      Answers (exec .envelopeInterval s) (fun t => t.die.therm.interval = s.die.cyc / 64 ∧
        1 ≤ t.die.rf 0x100020 20 16 ∧ t.die.rf 0x100020 20 16 ≤ 16 ∧
        (t.die.rf 0x100020 20 16 = s.die.rf 0x100020 20 16 + 1 ∨ t.die.rf 0x100020 20 16 + 1 = s.die.rf 0x100020 20 16 ∨
          t.die.rf 0x100020 20 16 = s.die.rf 0x100020 20 16) ∧
        t.die.pstate = s.die.pstate ∧ t.die.job = s.die.job ∧ t.die.latch = s.die.latch ∧ t.die.pins = s.die.pins))

/-- R398, R399, R401, R412: each millisecond the average moves towards the estimate by 1 ÷ WIN of the difference, the tracked level is the
estimate with no swing bound; with one it moves towards the power that the work would draw with no limiter, by no more than (SWING − 10) × CAP ÷
100,000 (the choice of log 87); the energy counter grows by the estimate's millijoules; each 10 ms, with CAL_EN, the gain moves by at most 1 %. -/
def Claims.PowerAndCalibration : Prop :=
  (∀ s : State, s.die.meshOn = true → s.die.ts.toNat / 100000 ≤ s.die.therm.power → exec .powerStep s = .next s) ∧
  (∀ s : State, s.die.meshOn = true → s.die.therm.power < s.die.ts.toNat / 100000 →
    let m := s.die.powerAt s.die.pstate
    let win := max 1 (s.die.rf 0x100004 15 0)
    let most := (s.die.rf 0x100008 7 0 - 10) * s.die.rf 0x100004 24 16 / 100
    let want := s.die.powerOf (s.die.workAt s.die.freeState) s.die.freeState
    Answers (exec .powerStep s) (fun t => t.die.therm.power = s.die.ts.toNat / 100000 ∧
      (s.die.therm.pavg ≤ 1000 * m → t.die.therm.pavg = s.die.therm.pavg + (1000 * m - s.die.therm.pavg) / win) ∧
      (1000 * m < s.die.therm.pavg → t.die.therm.pavg = s.die.therm.pavg - (s.die.therm.pavg - 1000 * m) / win) ∧
      (s.die.rf 0x100008 7 0 = 0 → t.die.therm.level = m) ∧
      (s.die.rf 0x100008 7 0 ≠ 0 → t.die.therm.level ≤ s.die.therm.level + most ∧ s.die.therm.level ≤ t.die.therm.level + most ∧
        min want s.die.therm.level ≤ t.die.therm.level ∧ t.die.therm.level ≤ max want s.die.therm.level ∧
        (want ≤ s.die.therm.level + most → s.die.therm.level ≤ want + most → t.die.therm.level = want)) ∧
      (t.die.reg 0x100048).toNat + 2 ^ 32 * (t.die.reg 0x10004C).toNat =
        ((s.die.reg 0x100048).toNat + 2 ^ 32 * (s.die.reg 0x10004C).toNat + m) % 2 ^ 64 ∧
      t.die.job = s.die.job ∧ t.die.cores = s.die.cores)) ∧
  (∀ (s : State) (iout vout : Nat), s.die.meshOn = true → bit (s.die.reg 0x100000) 30 = true → s.die.therm.calAt < s.die.ts.toNat / 1000000 →
    Answers (exec (.calibrationRead iout vout) s) (fun t => ∃ g, t = s.withDie { s.die with
        therm := { s.die.therm with calAt := s.die.ts.toNat / 1000000, gain := g } } ∧
      s.die.therm.gain - s.die.therm.gain / 100 ≤ g ∧ g ≤ s.die.therm.gain + s.die.therm.gain / 100)) ∧
  (∀ (s : State) (iout vout : Nat), s.die.meshOn = true →
    (bit (s.die.reg 0x100000) 30 = false ∨ s.die.ts.toNat / 1000000 ≤ s.die.therm.calAt) →
    exec (.calibrationRead iout vout) s = .next s)

/-- The intervals of the envelope, the power average and the calibration of the estimate. -/
def Obligations.PowerEnvelope : Prop :=
  Claims.EnvelopeIntervals ∧ Claims.PowerAndCalibration

/-- R383, R384, R407, R408, R540: a trip drives THERMTRIP_N low and starts the shutdown sequence once; a lost reference starts it without
THERMTRIP_N; when it completes only the Cellar domain is on and PWR_EN is low, the cause still latched. The loss of the AON oscillator is recorded
once, and its return clears it. -/
def Claims.TripsAndShutdown : Prop :=
  (∀ (s : State) (n : Fin 36), s.die.boot.porst = false → bit (s.die.reg 0x100064) 31 = false →
    Answers (exec (.thermalTrip n) s) (fun t => t.die.pins = { s.die.pins with thermtrip := .low } ∧
      t.die.therm.shutdown = some s.die.ts.toNat ∧ bit (t.die.reg 0x100064) 31 = true ∧ t.die.rf 0x100064 13 8 = n.val ∧
      t.die.meshOn = false ∧ t.die.job = s.die.job ∧ t.die.latch = s.die.latch)) ∧
  (∀ (s : State) (n : Fin 36), s.die.boot.porst = false → bit (s.die.reg 0x100064) 31 = true → exec (.thermalTrip n) s = .next s) ∧
  (∀ s : State, s.die.boot.porst = false → s.die.boot.refOk = true → bit (s.die.reg 0x100064) 31 = false →
    Answers (exec .refclkLoss s) (fun t => t.die.boot = { s.die.boot with refOk := false } ∧ t.die.pins = s.die.pins ∧
      t.die.therm.shutdown = some s.die.ts.toNat ∧ bit (t.die.reg 0x100064) 31 = true)) ∧
  (∀ (s : State) (x : Nat), s.die.boot.porst = false → s.die.therm.shutdown = some x →
    Answers (exec .shutdownComplete s) (fun t => t.die.pins = { s.die.pins with pwrEn := .low } ∧ t.die.cores = [] ∧ t.die.routers = [] ∧
      t.die.mods = [] ∧ t.die.therm.regions = [] ∧ t.die.therm.shutdown = none ∧ t.die.reg 0x100064 = s.die.reg 0x100064 ∧
      t.die.latch = s.die.latch ∧ t.die.flog = s.die.flog)) ∧
  (∀ s : State, s.die.boot.porst = false → s.die.therm.shutdown = none → exec .shutdownComplete s = .next s) ∧
  (∀ s : State, s.die.boot.porst = false → s.die.boot.aonRo = false →
    exec .aonLoss s = .next (s.withDie (({ s.die with boot := { s.die.boot with aonRo := true } }).thmErr 0 St.AON_LOSS))) ∧
  (∀ s : State, s.die.boot.porst = false → s.die.boot.aonRo = true → exec .aonLoss s = .next s) ∧
  (∀ s : State, s.die.boot.porst = false →
    exec .aonRestore s = .next (s.withDie { s.die with boot := { s.die.boot with aonRo := false } }))

/-- R413: an ageing period whose smallest slack lies below the low threshold raises the margin M by 5 mV up to 60 mV, and with no margin left
lowers the ceiling of the P-states by one and reports AGE_LIMIT; ten periods in a row above the high threshold lower M by 5 mV; any other
period leaves M. -/
def Claims.AgeingPeriods : Prop :=
  ∀ (s : State) (slack : Nat), s.die.meshOn = true →
    let m := s.die.rf 0x100028 7 0
    (s.die.ts.toNat / 1000000000 ≤ s.die.therm.ageAt → exec (.ageingPeriod slack) s = .next s) ∧
    (s.die.therm.ageAt < s.die.ts.toNat / 1000000000 → Answers (exec (.ageingPeriod slack) s) (fun t =>
      t.die.therm.ageAt = s.die.ts.toNat / 1000000000 ∧ t.die.job = s.die.job ∧ t.die.cores = s.die.cores ∧
      (slack < s.die.fuses.low → m < 60 → t.die.rf 0x100028 7 0 = min 60 (m + 5)) ∧
      (slack < s.die.fuses.low → 60 ≤ m → 1 ≤ s.die.rf 0x100028 11 8 → t.die.rf 0x100028 7 0 = m ∧
        t.die.rf 0x100028 11 8 = s.die.rf 0x100028 11 8 - 1 ∧
        (s.die.flog.length < 32 → ∃ e ∈ t.die.flog, e.sev = 0 ∧ e.src = 6 ∧ e.st = St.AGE_LIMIT)) ∧
      (s.die.fuses.low ≤ slack → slack ≤ s.die.fuses.high → t.die.rf 0x100028 7 0 = m ∧ t.die.therm.high = 0) ∧
      (s.die.fuses.low ≤ slack → s.die.fuses.high < slack → s.die.therm.high < 9 → t.die.rf 0x100028 7 0 = m ∧
        t.die.therm.high = s.die.therm.high + 1) ∧
      (s.die.fuses.low ≤ slack → s.die.fuses.high < slack → 9 ≤ s.die.therm.high → t.die.rf 0x100028 7 0 = m - 5 ∧
        t.die.therm.high = 0)))

/-- Thermal trips, shutdown and lost clocks; the ageing periods. -/
def Obligations.TripsAndAgeing : Prop :=
  Claims.TripsAndShutdown ∧ Claims.AgeingPeriods

/-! ### Flits on the wire -/

/-- R207: a header word holds its ten fields apart: packed, every header whose fields fit their widths is read back whole, and every 64-bit
word is the packing of the header read from it. -/
def Obligations.HeaderWords : Prop :=
  (∀ h : Hdr, h.vc < 4 → h.kind < 8 → h.dest < 4096 → h.dep < 16 → h.src < 4096 → h.sep < 16 → h.mseq < 65536 → h.fidx < 512 →
    Hdr.unpack h.pack = h) ∧
  (∀ w : BitVec 64, (Hdr.unpack w).pack = w)

/-- R162, R317, R319: a link flit of a clean mesh flit carries every field where R317 puts it, its CRC is that of its upper 752 bits, and its
nine codewords hold the header and the eight payload words with their check symbols, whatever the words and the fields are. -/
def Obligations.LinkFlitFields : Prop :=
  ∀ (l : LFlit) (lseq lack cvc ccnt : Nat) (ev : Option (Nat × Nat)), l.flit.err = [] → lseq < 1024 → lack < 1024 → cvc < 4 → ccnt < 64 →
    (∀ x, ev = some x → x.1 < 4 ∧ x.2 < 32) →
    let raw := linkFlit (linkBody l lseq ev) lack cvc ccnt
    fld raw 83 68 = l.ddie.toNat ∧ fld raw 67 52 = l.sdie.toNat ∧ fld raw 51 42 = lseq ∧ fld raw 41 32 = lack ∧ fld raw 31 30 = cvc ∧
    fld raw 29 24 = ccnt ∧ bit raw 23 = ev.isSome ∧ (∀ x, ev = some x → fld raw 22 21 = x.1 ∧ fld raw 20 16 = x.2) ∧
    fld raw 15 0 = crc16 752 (raw.toNat / 65536) ∧
    fld raw 147 84 = l.flit.hdr.toNat ∧ fld raw 159 148 = (eccCheck l.flit.hdr).toNat ∧
    ∀ j, j < 8 → fld raw (84 + 76 * (j + 1) + 63) (84 + 76 * (j + 1)) = (l.flit.word j).toNat ∧
      fld raw (84 + 76 * (j + 1) + 75) (84 + 76 * (j + 1) + 64) = (eccCheck (l.flit.word j)).toNat

/-! ### Link modules -/

/-- R314: the setting at which a module trains is the first that trains, from MAXRATE down to MINRATE, x64 before x32 at each rate; there is
none only where none trains. -/
def Claims.TrainingOrder : Prop :=
  ∀ maxr minr ok : Nat,
    (∀ r x32, trainPick maxr minr ok = some (r, x32) → r ≤ maxr ∧ (minr ≤ r ∨ r = maxr) ∧
      ok.testBit (2 * r + (if x32 then 1 else 0)) = true ∧ (x32 = true → ok.testBit (2 * r) = false) ∧
      ∀ r', r < r' → r' ≤ maxr → (minr ≤ r' ∨ r' = maxr) → ok.testBit (2 * r') = false ∧ ok.testBit (2 * r' + 1) = false) ∧
    (trainPick maxr minr ok = none →
      ∀ r, r ≤ maxr → (minr ≤ r ∨ r = maxr) → ok.testBit (2 * r) = false ∧ ok.testBit (2 * r + 1) = false)

/-- R314 to R316, R320, R322: the states of a module. Training makes it ACTIVE with the figures of the setting and fresh counts and credits, its
transit shaper as it was, or FAILED with LINK_TRAIN; EN = 0 powers it down and EN = 1 of a module that is OFF trains it, a module of role NONE only
until the site is committed; no write acts while a context runs or drains, and CTX_STATE is recorded; a retrain, its own or its peer's, takes an ACTIVE
module to RETRAINING, and its end back to ACTIVE with every outstanding flit to be resent, or to FAILED with its flits discarded and
LINK_DOWN. A fused module is not touched, and no event acts in a state that has no place for it. -/
def Claims.ModuleStates : Prop :=
  ∀ (s : State) (m : Fin 48), s.die.meshOn = true →
    let n := s.die.modState m.val
    let x := s.die.mod m.val
    (∀ (ok : Nat) (rt rr : Fin 16), n = 2 →
      (∀ r x32, trainPick (min 5 (s.die.rf (modOff m.val 0) 2 0)) (min 5 (s.die.rf (modOff m.val 0) 6 4)) ok = some (r, x32) →
        Answers (exec (.moduleTraining m ok rt rr) s) (fun t => t.die.modState m.val = 3 ∧
          (t.die.reg (modOff m.val 1)).toNat = Fit.stat ⟨x32, r, rt.val, rr.val⟩ ∧ t.die.mod m.val = { Module.reset with events := x.events, shaper := x.shaper } ∧
          (∀ k, k ≠ m.val → t.die.mod k = s.die.mod k ∧ t.die.reg (modOff k 1) = s.die.reg (modOff k 1)) ∧ t.die.cores = s.die.cores)) ∧
      (trainPick (min 5 (s.die.rf (modOff m.val 0) 2 0)) (min 5 (s.die.rf (modOff m.val 0) 6 4)) ok = none →
        Answers (exec (.moduleTraining m ok rt rr) s) (fun t => t.die.modState m.val = 5 ∧ t.die.mods = s.die.mods ∧
          (s.die.flog.length < 32 → ∃ e ∈ t.die.flog, e.src = 2 ∧ e.loc = m.val ∧ e.st = St.LINK_TRAIN)))) ∧
    (∀ (ok : Nat) (rt rr : Fin 16), n ≠ 2 → exec (.moduleTraining m ok rt rr) s = .next s) ∧
    (∀ v, s.die.anyBusy = true → exec (.moduleEnWrite m v) s = .next (s.withDie (s.die.porchErr 0 2 m.val St.CTX_STATE))) ∧
    (∀ v, s.die.anyBusy = false → n = 0 → exec (.moduleEnWrite m v) s = .next s) ∧
    (∀ v, s.die.anyBusy = false → n ≠ 0 → bit v 31 = false → Answers (exec (.moduleEnWrite m v) s) (fun t => t.die.modState m.val = 1 ∧
      t.die.mod m.val = { Module.reset with shaper := x.shaper } ∧ ∀ k, k ≠ m.val → t.die.mod k = s.die.mod k)) ∧
    (∀ v, s.die.anyBusy = false → n = 1 → bit v 31 = true → fld v 9 8 ≠ 0 → Answers (exec (.moduleEnWrite m v) s) (fun t =>
      t.die.modState m.val = 2 ∧ t.die.role m.val = fld v 9 8 ∧ t.die.porchOn m.val = true ∧ t.die.mods = s.die.mods)) ∧
    (∀ v, s.die.anyBusy = false → n = 1 → fld v 9 8 = 0 → bit (s.die.reg 0x140034) 31 = true → bit v 31 = true →
      Answers (exec (.moduleEnWrite m v) s) (fun t => t.die.modState m.val = 1 ∧ t.die.role m.val = 0)) ∧
    (n = 3 → ∀ i ∈ [Instr.retrain m, .peerPhyRetrain m], Answers (exec i s) (fun t => t.die.modState m.val = 4 ∧
      t.die.mods = s.die.mods ∧ t.die.rf (modOff m.val 1) 31 3 = s.die.rf (modOff m.val 1) 31 3)) ∧
    (n ≠ 3 → ∀ i ∈ [Instr.retrain m, .peerPhyRetrain m], exec i s = .next s) ∧
    (∀ f : Fit, n = 4 → Answers (exec (.retrainComplete m (some f)) s) (fun t => t.die.modState m.val = 3 ∧
      t.die.mod m.val = { x with resends := 0, resendFrom := if x.replay.isEmpty then none else some 0 } ∧
      (statLower (BitVec.ofNat 32 f.stat) (s.die.reg (modOff m.val 1)) = false → t.die.flog = s.die.flog) ∧
      (statLower (BitVec.ofNat 32 f.stat) (s.die.reg (modOff m.val 1)) = true → s.die.flog.length < 32 →
        ∃ e ∈ t.die.flog, e.src = 2 ∧ e.loc = m.val ∧ e.st = St.LINK_CHANGED))) ∧
    (n = 4 → Answers (exec (.retrainComplete m none) s) (fun t => t.die.modState m.val = 5 ∧
      t.die.mod m.val = { x with replay := [], egress := [], opened := none, resendFrom := none } ∧ t.die.hub = s.die.hub.filter (fun q => q.mod != m.val) ∧
      (s.die.flog.length < 32 → ∃ e ∈ t.die.flog, e.src = 2 ∧ e.loc = m.val ∧ e.st = St.LINK_DOWN))) ∧
    (∀ f, n ≠ 4 → exec (.retrainComplete m f) s = .next s)

/-- The order of training settings, and the states of a link module. -/
def Obligations.LinkModules : Prop :=
  Claims.TrainingOrder ∧ Claims.ModuleStates

/-- R317, R318, R320, R321, R323, R329, R331, R335: what an ACTIVE module sends. A resend puts the next outstanding flit on the wires again;
otherwise the data flit of an open packet, or the data flit that is next in line and can go, takes the next LSEQ, spends one credit and is kept for
replay, with the oldest barrier event; a null flit carries an event where no data flit is ready; an idle flit takes no LSEQ, and is the replay
request where one is due. -/
def Claims.LinkSending : Prop :=
  ∀ (s : State) (m : Fin 48), s.die.meshOn = true → s.die.modState m.val = 3 →
    let x := s.die.mod m.val
    let numbered (y : Module) (w : LFlit) : Module :=
      let body := linkBody w x.txSeq x.events.head?
      { y with
        txSeq := (x.txSeq + 1) % 1024, replay := x.replay ++ [⟨x.txSeq, body, s.die.cyc, 0⟩], events := x.events.tail
        wire := some (linkFlit body ((x.rxSeq + 1023) % 1024) x.cvc (tget 0 x.freed x.cvc)), cvc := (x.cvc + 1) % 3 }
    let spent (y : Module) (vc : Nat) : Module := { y with used := tset 0 x.used vc (tget 0 x.used vc + 1) }
    (∀ i e, x.resendFrom = some i → x.replay[i]? = some e → Answers (exec (.linkFlitSend m) s) (fun t =>
      t.die.mod m.val = { x with
        replay := modNth x.replay i (fun e : Sent => { e with at_ := s.die.cyc })
        resendFrom := if i + 1 < x.replay.length then some (i + 1) else none
        wire := some (linkFlit e.body ((x.rxSeq + 1023) % 1024) x.cvc (tget 0 x.freed x.cvc)), cvc := (x.cvc + 1) % 3 } ∧
      t.die.around = s.die.around ∧ t.die.cores = s.die.cores ∧ t.die.routers = s.die.routers ∧ t.die.regs = s.die.regs)) ∧
    (∀ w : LFlit, x.resendFrom = none → x.replay.length < 256 → x.opened = some w → Answers (exec (.linkFlitSend m) s) (fun t =>
      t.die.mod m.val = numbered (spent { x with opened := none } w.flit.h.vc) w ∧
      (∀ k, k ≠ m.val → t.die.mod k = s.die.mod k) ∧ t.die.cores = s.die.cores ∧ t.die.regs = s.die.regs ∧ t.die.flog = s.die.flog)) ∧
    (x.resendFrom = none → x.replay.length < 256 → x.opened = none → s.die.connWork m.val = none →
      (∀ (l w : LFlit) (d : Die), s.die.role m.val < 2 → s.die.nextOut m.val = some l → s.die.toWire m.val l = some (d, w) →
        Answers (exec (.linkFlitSend m) s) (fun t =>
          t.die.mod m.val = numbered (spent { x with egress := x.egress.erase l } w.flit.h.vc) w ∧
          (∀ k, k ≠ m.val → t.die.mod k = s.die.mod k) ∧ t.die.cores = s.die.cores ∧ t.die.regs = s.die.regs ∧ t.die.flog = s.die.flog)) ∧
      (∀ l : LFlit, s.die.role m.val = 2 → s.die.nextOut m.val = some l → Answers (exec (.linkFlitSend m) s) (fun t =>
        t.die.mod m.val = numbered (spent { x with egress := x.egress.erase l } l.flit.h.vc) ⟨s.die.addr, s.die.addr, l.flit⟩ ∧
        (l.flit.h.tail = true → l.flit.h.kind = 5 → ∃ q, t.die.hub = s.die.hub ++ [q] ∧ q.mod = m.val ∧ q.src = l.flit.h.src ∧
          q.sep = l.flit.h.sep ∧ q.mseq = l.flit.h.mseq ∧ q.at_ = s.die.ts.toNat) ∧
        t.die.cores = s.die.cores ∧ t.die.regs = s.die.regs)) ∧
      (s.die.nextOut m.val = none → exec (.linkFlitSend m) s = .next s)) ∧
    (s.die.ready m.val = false → x.events ≠ [] → x.replay.length < 256 → Answers (exec (.nullFlitSend m) s) (fun t =>
      t.die.mod m.val = numbered x (bareFlit 1) ∧ t.die.cores = s.die.cores ∧ t.die.regs = s.die.regs)) ∧
    ((s.die.ready m.val = true ∨ x.events = [] ∨ 256 ≤ x.replay.length) → exec (.nullFlitSend m) s = .next s) ∧
    ((x.askReplay = true ∨ (s.die.ready m.val = false ∧ x.events = [])) → Answers (exec (.idleFlitSend m) s) (fun t =>
      let lack := (x.rxSeq + 1023) % 1024
      let body := linkBody (bareFlit 0) x.txSeq none
      t.die.mod m.val = (if x.askReplay then { x with wire := some (linkFlit body lack 3 1), askReplay := false }
        else { x with wire := some (linkFlit body lack x.cvc (tget 0 x.freed x.cvc)), cvc := (x.cvc + 1) % 3 }) ∧
      (∀ k, k ≠ m.val → t.die.mod k = s.die.mod k) ∧ t.die.regs = s.die.regs ∧ t.die.cores = s.die.cores)) ∧
    (x.askReplay = false → (s.die.ready m.val = true ∨ x.events ≠ []) → exec (.idleFlitSend m) s = .next s)

/-- R319 to R321, R328: what an ACTIVE PEER module makes of a link flit that arrives whole: its LACK and credits are taken up; a flit
with the LSEQ expected is accepted, and one of VC0 or VC2 for this die enters the mesh at its edge router with its slot freed, or waits in the
Landing behind an older flit of its VC or for the router's input register; a flit ahead, an idle flit among them, asks for a replay, once for the
gap; one seen before is dropped. A module that is not ACTIVE receives nothing. -/
def Claims.LinkReceiving : Prop :=
  (∀ (s : State) (m : Fin 48) (l : LFlit) (lseq lack cvc ccnt : Nat), s.die.meshOn = true → s.die.modState m.val = 3 →
    s.die.role m.val = 1 → s.die.addrSet = true → l.ddie = s.die.addr → l.flit.err = [] → l.flit.leaves = [] → l.flit.transit = none →
    l.flit.port = false → l.flit.pay.length = 8 → (l.flit.h.vc = 0 ∨ l.flit.h.vc = 2) → lseq < 1024 → lack < 1024 → cvc < 4 → ccnt < 64 →
    let raw := linkFlit (linkBody l lseq none) lack cvc ccnt
    let d := s.die.modMod m.val (fun x => x.takeLack lack cvc ccnt)
    let x := s.die.mod m.val
    let e := d.modMod m.val (fun y => { y with rxSeq := (y.rxSeq + 1) % 1024, asked := false, askReplay := false })
    (lseq = x.rxSeq → (∀ g ∈ x.ingress, g.flit.h.vc ≠ l.flit.h.vc) →
      (∀ f ∈ (s.die.router (entryRouter m.val l)).inp 5, f.h.vc ≠ l.flit.h.vc) → exec (.linkFlitReceive m raw) s = .next (s.withDie
        ((e.enter (entryRouter m.val l) 5 { l.flit with port := l.flit.h.vc == 2 && l.flit.h.kind == 6 }).modMod m.val
          (fun y => y.freeSlot l.flit.h.vc)))) ∧
    (lseq = x.rxSeq → ((∃ g ∈ x.ingress, g.flit.h.vc = l.flit.h.vc) ∨ ∃ f ∈ (s.die.router (entryRouter m.val l)).inp 5, f.h.vc = l.flit.h.vc) →
      exec (.linkFlitReceive m raw) s = .next (s.withDie (e.modMod m.val (fun y => { y with ingress := y.ingress ++ [l] })))) ∧
    (lseq ≠ x.rxSeq → atOrAfter 10 x.rxSeq lseq = true → exec (.linkFlitReceive m raw) s = .next (s.withDie
      (d.modMod m.val Module.wantReplay))) ∧
    (lseq ≠ x.rxSeq → atOrAfter 10 x.rxSeq lseq = false → exec (.linkFlitReceive m raw) s = .next (s.withDie d))) ∧
  (∀ (s : State) (m : Fin 48) (lseq lack cvc ccnt : Nat), s.die.meshOn = true → s.die.modState m.val = 3 → lseq < 1024 → lack < 1024 →
    cvc < 3 → ccnt < 64 →
    let raw := linkFlit (linkBody (bareFlit 0) lseq none) lack cvc ccnt
    let d := s.die.modMod m.val (fun x => x.takeLack lack cvc ccnt)
    let x := s.die.mod m.val
    (lseq ≠ x.rxSeq → atOrAfter 10 x.rxSeq lseq = true → exec (.linkFlitReceive m raw) s = .next (s.withDie
      (d.modMod m.val Module.wantReplay))) ∧
    (lseq = x.rxSeq ∨ atOrAfter 10 x.rxSeq lseq = false → exec (.linkFlitReceive m raw) s = .next (s.withDie d))) ∧
  (∀ (s : State) (m : Fin 48) (raw : BitVec 768), s.die.meshOn = true → s.die.modState m.val ≠ 3 →
    exec (.linkFlitReceive m raw) s = .next s)

/-- R321, R322: a replay request that has been received, and an oldest outstanding flit that has waited 256 flit times, make the sender go
back to its oldest outstanding flit and count one resend; without either nothing happens. -/
def Claims.Replays : Prop :=
  ∀ (s : State) (m : Fin 48), s.die.meshOn = true →
    let x := s.die.mod m.val
    let back (y : Module) : Module :=
      { y with resendFrom := some 0, resends := y.resends + 1, replay := y.replay.map (fun e : Sent => ⟨e.lseq, e.body, s.die.cyc, e.again + 1⟩) }
    (x.asks = true → x.replay ≠ [] → Answers (exec (.replayRequest m) s) (fun t => t.die.mod m.val = back { x with asks := false } ∧
      (x.resends < 7 → (∀ e ∈ x.replay, e.again = 0) → t.die.flog = s.die.flog ∧ t.die.modState m.val = s.die.modState m.val) ∧
      ((∃ e ∈ x.replay, 1 ≤ e.again) → s.die.flog.length < 32 → ∃ e ∈ t.die.flog, e.src = 2 ∧ e.loc = m.val ∧ e.st = St.LINK_REPLAY) ∧
      (7 ≤ x.resends → s.die.modState m.val = 3 → t.die.modState m.val = 4) ∧ t.die.cores = s.die.cores)) ∧
    (x.asks = false → exec (.replayRequest m) s = .next s) ∧
    (∀ e es, x.replay = e :: es → s.die.modState m.val = 3 → s.die.flitTimes m.val 256 e.at_ = true →
      Answers (exec (.replayTimeout m) s) (fun t => t.die.mod m.val = back x ∧ t.die.cores = s.die.cores)) ∧
    (∀ e es, x.replay = e :: es → s.die.flitTimes m.val 256 e.at_ = false → exec (.replayTimeout m) s = .next s) ∧
    (x.replay = [] → exec (.replayTimeout m) s = .next s)

/-- What a module sends, what it takes from the wires, and its replays. -/
def Obligations.LinkTraffic : Prop :=
  Claims.LinkSending ∧ Claims.LinkReceiving ∧ Claims.Replays

/-- R325, R440: the die address is assigned once: the first write of an address other than 0xFFFF takes it, and it never changes after;
a later write is refused with ADDR_SET. A write that is not refused clears SITE. -/
def Claims.DieAddress : Prop :=
  ∀ (s : State) (v : Word), s.die.meshOn = true →
    (s.die.addrSet = false → fld v 15 0 ≠ 0xFFFF → exec (.dieAddrWrite v) s =
      .next (s.withDie (s.die.setNat 0x80000 (put 1 31 + fld v 15 0)).siteStale)) ∧
    (s.die.addrSet = false → fld v 15 0 ≠ 0xFFFF → Answers (exec (.dieAddrWrite v) s) (fun t =>
      t.die.addrSet = true ∧ t.die.addr = v.setWidth 16 ∧ bit (t.die.reg 0x140034) 31 = false)) ∧
    (s.die.addrSet = false → fld v 15 0 = 0xFFFF → exec (.dieAddrWrite v) s = .next (s.withDie s.die.siteStale)) ∧
    (s.die.addrSet = true → exec (.dieAddrWrite v) s = .next (s.withDie (s.die.porchErr 0 6 0 St.ADDR_SET)))

/-- R331, R333, R497: a hub's answer ends the request it names: an error status goes back as the requester's response, a line enters the mesh and
counts one line less, and an answer to no request is discarded and counted; a request that outlives PORCH_HUB_TO completes with MEM_TIMEOUT. -/
def Claims.HubRequests : Prop :=
  ∀ (s : State) (m : Fin 48), s.die.meshOn = true →
    let took (l : LFlit) (rest : List LFlit) : Die := s.die.modMod m.val (fun x => { x with ingress := rest }.freeSlot l.flit.h.vc)
    let mine (l : LFlit) (q : HubReq) : Bool := q.mod == m.val && q.src == l.flit.h.dest && q.sep == l.flit.h.sep && q.mseq == l.flit.h.mseq
    (∀ l rest, s.die.role m.val = 2 → (s.die.mod m.val).ingress = l :: rest →
      (s.die.hub.findIdx? (mine l) = none → exec (.hubResponse m) s = .next (s.withDie ((took l rest).discard m.val 1))) ∧
      (∀ i q, s.die.hub.findIdx? (mine l) = some i → s.die.hub[i]? = some q →
        (l.flit.h.kind = 6 → exec (.hubResponse m) s = .next (s.withDie
          (({ took l rest with hub := s.die.hub.eraseIdx i }).hubReply q (hubStatus (fld (l.flit.word 0) 15 0))))) ∧
        (l.flit.h.kind ≠ 6 → exec (.hubResponse m) s = .next (s.withDie (({ took l rest with
          hub := if q.left - 1 = 0 then s.die.hub.eraseIdx i else s.die.hub.set i { q with left := q.left - 1 } }).enter
            (entryRouter m.val l) 5 l.flit))))) ∧
    ((s.die.mod m.val).ingress = [] → exec (.hubResponse m) s = .next s) ∧
    (∀ i q, s.die.hub[i]? = some q →
      (s.die.rf 0x8000C 19 0 ≠ 0 → q.at_ + 100 * s.die.rf 0x8000C 19 0 ≤ s.die.ts.toNat → exec (.hubTimeout i) s = .next (s.withDie
        (({ s.die with hub := s.die.hub.eraseIdx i }).hubReply q St.MEM_TIMEOUT))) ∧
      (s.die.rf 0x8000C 19 0 = 0 ∨ s.die.ts.toNat < q.at_ + 100 * s.die.rf 0x8000C 19 0 → exec (.hubTimeout i) s = .next s)) ∧
    (∀ x, hubStatus x = St.OK ∨ hubStatus x = St.MEM_ADDR ∨ hubStatus x = St.HUB_ERR)

/-- R334 to R338, R341: long-reach connections. EN starts both sequences at 0 unless an edge's windows would pass 16,384 flits, and clears FAILED
only after a write of EN = 0; no write acts while a context runs or drains. A packet in order is accepted, its flits land on the module they came by
and the next is expected; a packet seen before is acknowledged again and dropped; one ahead is answered with one NAK for its gap; an acknowledgement
goes after 16 packets or 1 µs; the oldest unacknowledged packet that outlives its timeout has every one sent again from the oldest, and at the retry
limit the connection has FAILED with XPORT_FAIL. -/
def Claims.LongReachConnections : Prop :=
  ∀ (s : State) (k : Fin 64), s.die.meshOn = true →
    let c := s.die.conn k.val
    let old := s.die.reg (connOff k.val 0)
    (∀ v, s.die.anyBusy = true → exec (.connectionEnable k v) s = .next (s.withDie (s.die.porchErr 0 3 k.val St.CTX_STATE))) ∧
    (∀ v, s.die.anyBusy = false → bit v 31 = true →
      let ctl := mergeMask 0 v 0x8F00FFFF ||| (if bit old 31 = false then 0 else old &&& 0x40000000)
      ((∀ e ∈ s.die.groupEdges (fld v 27 24), s.die.edgeWindow e k.val ctl ≤ 16384) →
        exec (.connectionEnable k v) s = .next (s.withDie (Die.siteStale { (((s.die.setReg (connOff k.val 0) ctl).setReg
          (connOff k.val 1) 0).setReg (connOff k.val 2) 0) with conns := tset .reset s.die.conns k.val .reset }))) ∧
      ((∃ e ∈ s.die.groupEdges (fld v 27 24), 16384 < s.die.edgeWindow e k.val ctl) →
        exec (.connectionEnable k v) s = .next (s.withDie (s.die.porchErr 0 3 k.val St.XPORT_WIN)))) ∧
    (∀ v, s.die.anyBusy = false → bit v 31 = false → exec (.connectionEnable k v) s =
      .next (s.withDie (s.die.setReg (connOff k.val 0) (mergeMask 0 v 0x8F00FFFF ||| (old &&& 0x40000000))).siteStale)) ∧
    (c.got = [] → exec (.transportPacketReceive k) s = .next s) ∧
    (∀ p rest, c.got = p :: rest → bit old 31 = true → p.nak = false →
      let d := s.die.modConn k.val (fun c => { c with got := rest }.ack p.tack)
      let want := (s.die.reg (connOff k.val 2)).toNat
      (p.cnt = 0 → exec (.transportPacketReceive k) s = .next (s.withDie d)) ∧
      (p.cnt ≠ 0 → p.tseq = want → exec (.transportPacketReceive k) s = .next (s.withDie (p.flits.foldl
        (fun d l => d.deliver p.mod l) ((d.setNat (connOff k.val 2) (want + 1)).modConn k.val (fun c =>
          { c with naked := false, firstAt := if c.since = 0 then s.die.ts.toNat else c.firstAt, since := c.since + 1 }))))) ∧
      (p.cnt ≠ 0 → p.tseq ≠ want → atOrAfter 32 want p.tseq = true → c.naked = true → exec (.transportPacketReceive k) s =
        .next (s.withDie (d.freePacket p))) ∧
      (p.cnt ≠ 0 → p.tseq ≠ want → atOrAfter 32 want p.tseq = true → c.naked = false → exec (.transportPacketReceive k) s =
        .next (s.withDie (((d.freePacket p).modConn k.val (fun c => { c with naked := true })).connSend k.val true))) ∧
      (p.cnt ≠ 0 → p.tseq ≠ want → atOrAfter 32 want p.tseq = false → exec (.transportPacketReceive k) s =
        .next (s.withDie ((d.freePacket p).connSend k.val false)))) ∧
    (bit old 31 = true → 0 < c.since → (16 ≤ c.since ∨ c.firstAt + 100 ≤ s.die.ts.toNat) → exec (.transportAckTimer k) s =
      .next (s.withDie ((s.die.modConn k.val (fun c => { c with since := 0 })).connSend k.val false))) ∧
    ((bit old 31 = false ∨ c.since = 0 ∨ (c.since < 16 ∧ s.die.ts.toNat < c.firstAt + 100)) → exec (.transportAckTimer k) s = .next s) ∧
    (∀ p ps, c.unacked = p :: ps → bit old 31 = true → bit old 30 = false →
      (s.die.ts.toNat < p.at_ + 100 * s.die.rf (connOff k.val 3) 11 0 → exec (.transportRetransmitTimeout k) s = .next s) ∧
      (p.at_ + 100 * s.die.rf (connOff k.val 3) 11 0 ≤ s.die.ts.toNat → c.retries < max 1 (s.die.rf (connOff k.val 3) 31 28) →
        Answers (exec (.transportRetransmitTimeout k) s) (fun t => t.die.conn k.val =
          { c with retries := c.retries + 1, resend := some 0, unacked := c.unacked.map (fun u => { u with at_ := s.die.ts.toNat }) } ∧
          t.die.regs = s.die.regs ∧ t.die.flog = s.die.flog)) ∧
      (p.at_ + 100 * s.die.rf (connOff k.val 3) 11 0 ≤ s.die.ts.toNat → max 1 (s.die.rf (connOff k.val 3) 31 28) ≤ c.retries →
        Answers (exec (.transportRetransmitTimeout k) s) (fun t => (t.die.conn k.val).unacked = [] ∧
          bit (t.die.reg (connOff k.val 0)) 30 = true ∧
          (s.die.flog.length < 32 → ∃ e ∈ t.die.flog, e.src = 3 ∧ e.loc = k.val ∧ e.st = St.XPORT_FAIL)))) ∧
    ((c.unacked = [] ∨ bit old 31 = false ∨ bit old 30 = true) → exec (.transportRetransmitTimeout k) s = .next s)

/-- The die address, requests to a memory hub, and the connections of the long-reach transport. -/
def Obligations.HubAndTransport : Prop :=
  Claims.DieAddress ∧ Claims.HubRequests ∧ Claims.LongReachConnections

/-- R325, R328, R329: where a flit of a module goes. Without a die address none but a Service request for 0xFFFF is taken: the others are
recorded with ADDR_UNSET and their slots freed. From the Landing a flit for this die enters the mesh at its edge router, a stream flit only under an
ingress entry that matches it; one for another die goes on towards it, a stream flit through the transit shaper; with no route a Service request
is answered NO_ROUTE on the module and anything else is discarded. -/
def Claims.LandedFlits : Prop :=
  ∀ (d : Die) (m : Nat) (l : LFlit),
    (∀ ev, d.addrSet = false → l.flit.h.vc ≠ 3 → ¬ (l.ddie = 0xFFFF ∧ l.flit.h.vc = 2 ∧ l.flit.h.kind = 5) →
      d.accept m l ev = (d.porchErr 0 2 m St.ADDR_UNSET).modMod m (fun x => x.freeSlot l.flit.h.vc)) ∧
    (d.addrSet = true → l.ddie = d.addr → (l.flit.h.vc ≠ 1 ∨ 3 ≤ l.flit.h.kind) →
      d.landed m l = d.enter (entryRouter m l) 5 { l.flit with port := l.flit.h.vc == 2 && l.flit.h.kind == 6 }) ∧
    (d.addrSet = true → l.ddie = d.addr → l.flit.h.vc = 1 → l.flit.h.kind < 3 →
      (∀ f, d.ingressStream m l = some f → d.landed m l = d.enter (entryRouter m l) 5 f) ∧
      (d.ingressStream m l = none → d.landed m l = d.fsMiss m)) ∧
    (l.ddie ≠ d.addr → l.ddie ≠ 0xFFFF →
      (l.flit.h.vc = 1 → d.deliver m l = d.modMod m (fun x => { x with ingress := x.ingress ++ [l] })) ∧
      (∀ o g, routeModule d.reg l.ddie (flowKey l.sdie l.flit.h.src) = some (o, g) → d.landed m l =
        d.enter (entryRouter m l) 5 { l.flit with
          hdr := { l.flit.h with far := true, dest := o }.pack, transit := some (l.ddie, l.sdie, l.flit.h.dest) }) ∧
      (routeModule d.reg l.ddie (flowKey l.sdie l.flit.h.src) = none → ¬ (l.flit.h.vc = 2 ∧ l.flit.h.kind = 5) →
        d.landed m l = (d.porchErr 0 2 m St.NO_ROUTE).discard m 1) ∧
      (routeModule d.reg l.ddie (flowKey l.sdie l.flit.h.src) = none → l.flit.h.vc = 2 → l.flit.h.kind = 5 →
        ∃ r : LFlit, d.landed m l = (d.porchErr 0 2 m St.NO_ROUTE).modMod m (fun x => { x with egress := x.egress ++ [r] }) ∧
          r.ddie = l.sdie ∧ r.sdie = d.addr ∧ r.flit.h.vc = 2 ∧ r.flit.h.kind = 6 ∧ fld (r.flit.word 0) 15 0 = St.NO_ROUTE.toNat ∧
          r.flit.word 1 = l.flit.word 1))

/-- R328, R220: the oldest stream flit for another die that waits in a Landing leaves when the module's transit shaper has a token for it and the
router's input register is free of its VC; it goes where R328 sends it and its slot is freed. With no token, no place, or none waiting, nothing
happens. -/
def Claims.TransitShaping : Prop :=
  ∀ (s : State) (m : Fin 48), s.die.meshOn = true → s.die.role m.val ≠ 2 →
    let x := s.die.mod m.val
    (∀ l sh, x.ingress.find? (fun l => l.flit.h.vc == 1 && l.ddie != 0xFFFF && l.ddie != s.die.addr) = some l →
      (∀ f ∈ (s.die.router (entryRouter m.val l)).inp 5, f.h.vc ≠ 1) → x.shaper.spend (s.die.reg (modOff m.val 2)) s.die.cyc 1 = some sh →
      exec (.transitAdmit m) s = .next (s.withDie (((s.die.modMod m.val (fun x =>
        { x with ingress := x.ingress.erase l, shaper := sh })).landed m.val l).modMod m.val (fun x => x.freeSlot 1)))) ∧
    (∀ l, x.ingress.find? (fun l => l.flit.h.vc == 1 && l.ddie != 0xFFFF && l.ddie != s.die.addr) = some l →
      (∃ f ∈ (s.die.router (entryRouter m.val l)).inp 5, f.h.vc = 1) → exec (.transitAdmit m) s = .next s) ∧
    (x.shaper.spend (s.die.reg (modOff m.val 2)) s.die.cyc 1 = none → exec (.transitAdmit m) s = .next s) ∧
    ((∀ l ∈ x.ingress, ¬ (l.flit.h.vc = 1 ∧ l.ddie ≠ 0xFFFF ∧ l.ddie ≠ s.die.addr)) → exec (.transitAdmit m) s = .next s)

/-- Flits landed from a link, and the shaping of flits in transit. -/
def Obligations.LandedAndTransitFlits : Prop :=
  Claims.LandedFlits ∧ Claims.TransitShaping

/-! ### The sequencer -/

/-- R173, R178, R179, R193: whatever the instruction, a command that issues it does nothing when no context can issue in this cycle or when
the next word is of another opcode; a next word outside its context's range faults the context with SEQ_PC; a word that decode
refuses faults it with decode's status; a word that R178 holds back only stalls issue for the cycle, which CORE_SEQ_SCB_STALL counts. -/
def Claims.IssueRules : Prop :=
  ∀ (s : State) (i : Instr) (c : CoreCode) (op : Nat), issueOf i = some (c, op) → s.die.coreOn c.toNat = true → (s.coreAt c).Idle →
    let k := s.coreAt c
    ((s.wk c).issuing = none → exec i s = .next (s.withCore c k)) ∧
    (∀ ctx, ctx < 4 → (s.wk c).issuing = some ctx →
      let pc := (k.ctx ctx).npc
      let x := k.iword pc
      (k.inRange ctx pc = false → Answers (exec i s) (fun t => s.Faulted t c ctx 0 pc St.SEQ_PC)) ∧
      (k.inRange ctx pc = true → opc x ≠ op → exec i s = .next (s.withCore c k)) ∧
      (k.inRange ctx pc = true → opc x = op →
        (∀ st, k.decodeBad s.die.cyc ctx pc x = some st → Answers (exec i s) (fun t => s.Faulted t c ctx 0 pc st)) ∧
        (k.decodeBad s.die.cyc ctx pc x = none → k.scoreboard s.die.cyc ctx x = true →
          exec i s = .next (s.withCore c { k.bump s.die.cyc 0x018 1 with issueAt := s.die.cyc + 1 }))))

/-- R173, R179: a next word with a reserved opcode is refused with SEQ_OP; the command does nothing on any other word. -/
def Claims.ReservedOpcodes : Prop :=
  ∀ (s : State) (c : CoreCode) (ctx : Nat), s.die.coreOn c.toNat = true → ctx < 4 →
    (s.wk c).issuing = some ctx → (s.coreAt c).inRange ctx ((s.coreAt c).ctx ctx).npc = true →
    let pc := ((s.coreAt c).ctx ctx).npc
    (opReserved (opc ((s.coreAt c).iword pc)) = true → Answers (exec (.reservedOpcode c) s) (fun t => s.Faulted t c ctx 0 pc St.SEQ_OP)) ∧
    (opReserved (opc ((s.coreAt c).iword pc)) = false → exec (.reservedOpcode c) s = .next (s.withCore c (s.coreAt c))) ∧
    (∀ op, op < 64 → (opReserved op = true ↔ op ∈ [0x04, 0x0C, 0x0E, 0x0F, 0x16, 0x17, 0x1A, 0x1B, 0x1F, 0x27, 0x2B, 0x2C, 0x2D, 0x2E, 0x2F,
      0x36, 0x37, 0x38, 0x39, 0x3A, 0x3B, 0x3C, 0x3D, 0x3E, 0x3F]))

/-- R180 to R182, R194, R195: the sequencer instructions that compute and fall through, each by its fields: NOP, SALU, SALI, LCTL, PRED,
SHAPE and SHP. `after` is the word issued and the sequencer at the word that follows it (R184). Nothing else of the block changes. -/
def Claims.SequencerArithmetic : Prop :=
  ∀ (s : State) (c : CoreCode) (ctx pc : Nat) (x : BitVec 64), s.Issues c ctx pc x →
    let k := s.coreAt c
    let w := s.wk c
    let after (w : Wk) : Host.Outcome State Fault Refusal := .next (s.withCore c ((w.issued ctx pc 0).backEdge ctx pc).c)
    (opc x = 0x00 → exec (.nop c) s = after w) ∧
    (opc x = 0x02 → exec (.salu c) s = after (w.setS ctx (fld x 52 49) (salu (fld x 57 53) (k.sreg ctx (fld x 48 45)) (k.sreg ctx (fld x 44 41))))) ∧
    (opc x = 0x03 → exec (.sali c) s =
      after (w.setS ctx (fld x 52 49) (salu (fld x 57 53) (k.sreg ctx (fld x 48 45)) (BitVec.ofNat 32 (fld x 44 13))))) ∧
    (opc x = 0x06 → exec (.lctl c) s = after (if bit x 57 = true then w.setL ctx (fld x 56 54) (k.sreg ctx (fld x 53 50))
      else w.setS ctx (fld x 53 50) (k.lreg ctx (fld x 56 54)))) ∧
    (opc x = 0x08 →
      let a := k.pred ctx (bit x 50) (fld x 49 47)
      let b := k.pred ctx (bit x 46) (fld x 45 43)
      let n := k.sreg ctx (fld x 42 39)
      let sets (v : BitVec 16) : Prop := exec (.pred c) s = after (w.setPred ctx (bit x 54) (fld x 53 51) v)
      (fld x 57 55 = 0 → sets (BitVec.ofNat 16 (fld x 38 23))) ∧ (fld x 57 55 = 1 → sets (BitVec.ofNat 16 (lowMask 16 n))) ∧
      (fld x 57 55 = 2 → sets (a &&& b)) ∧ (fld x 57 55 = 3 → sets (a ||| b)) ∧ (fld x 57 55 = 4 → sets (a ^^^ b)) ∧
      (fld x 57 55 = 5 → sets (a &&& ~~~b)) ∧ (fld x 57 55 = 6 → sets (n.setWidth 16)) ∧
      (fld x 57 55 = 7 → exec (.pred c) s = after (w.setS ctx (fld x 42 39) (a.setWidth 32)))) ∧
    (opc x = 0x09 →
      let n := k.sreg ctx (fld x 55 52)
      (fld x 57 56 = 0 → exec (.shape c) s = after (w.modCtx ctx (fun y => { y with sr := BitVec.ofNat 16 (lowMask 16 n) }))) ∧
      (fld x 57 56 = 1 → exec (.shape c) s = after (w.modCtx ctx (fun y => { y with sc := BitVec.ofNat 16 (lowMask 16 n) }))) ∧
      (fld x 57 56 = 2 → exec (.shape c) s = after (w.modCtx ctx (fun y => { y with sk := BitVec.ofNat 8 (lowMask 8 n) })))) ∧
    (opc x = 0x0A →
      let at_ := 0x200 + 0x40 * ctx + 8 * fld x 52 50
      let ext := k.reg at_
      let most := k.reg (at_ + 4)
      (bit x 57 = true → exec (.shp c) s = after (w.setReg at_ (k.sreg ctx (fld x 56 53)))) ∧
      (bit x 57 = false → ext.toNat ≤ most.toNat → exec (.shp c) s = after (w.setS ctx (fld x 56 53) ext)) ∧
      (bit x 57 = false → most.toNat < ext.toNat → exec (.shp c) s = after (((w.setS ctx (fld x 56 53) most).modCtx ctx
        (fun y => { y with ovr := y.ovr ||| BitVec.ofNat 8 (2 ^ fld x 52 50) })).seqErr ctx St.SHAPE_OVER)))

/-- When a word issues and which is refused; the scalar, loop-counter, predicate and shape instructions. -/
def Obligations.SequencerIssue : Prop :=
  Claims.IssueRules ∧ Claims.ReservedOpcodes ∧ Claims.SequencerArithmetic

/-- R181: the scalar functions of SALU and SALI, b being IMM in SALI, and the branch conditions, by the integers they stand for; with them the low masks that PRED and SHAPE make (R182, R195). -/
def Obligations.ScalarFunctions : Prop :=
  (∀ a b : Word,
    salu 0x00 a b = b ∧ (salu 0x01 a b).toNat = (a.toNat + b.toNat) % 2 ^ 32 ∧
    (salu 0x02 a b).toInt = (a.toInt - b.toInt).bmod (2 ^ 32) ∧ (salu 0x03 a b).toNat = a.toNat * b.toNat % 2 ^ 32 ∧
    (∀ i, i < 32 → (salu 0x04 a b).getLsbD i = (a.getLsbD i && b.getLsbD i) ∧ (salu 0x05 a b).getLsbD i = (a.getLsbD i || b.getLsbD i) ∧
      (salu 0x06 a b).getLsbD i = xor (a.getLsbD i) (b.getLsbD i)) ∧
    (salu 0x07 a b).toNat = a.toNat * 2 ^ (b.toNat % 32) % 2 ^ 32 ∧ (salu 0x08 a b).toNat = a.toNat / 2 ^ (b.toNat % 32) ∧
    (salu 0x09 a b).toInt = a.toInt / 2 ^ (b.toNat % 32) ∧
    (salu 0x0A a b).toInt = min a.toInt b.toInt ∧ (salu 0x0B a b).toInt = max a.toInt b.toInt ∧
    (salu 0x0C a b).toNat = min a.toNat b.toNat ∧ (salu 0x0D a b).toNat = max a.toNat b.toNat ∧
    (salu 0x0E a b = 1 ↔ a.toInt < b.toInt) ∧ (salu 0x0F a b = 1 ↔ a.toNat < b.toNat) ∧ (salu 0x0E a b).toNat < 2 ∧ (salu 0x0F a b).toNat < 2 ∧
    (salu 0x10 a b).toInt = max 0 (min a.toInt b.toInt) ∧
    (brcTaken 0 a b = true ↔ a.toNat = b.toNat) ∧ (brcTaken 1 a b = true ↔ a.toNat ≠ b.toNat) ∧
    (brcTaken 2 a b = true ↔ a.toInt < b.toInt) ∧ (brcTaken 3 a b = true ↔ b.toInt ≤ a.toInt) ∧
    (brcTaken 4 a b = true ↔ a.toNat < b.toNat) ∧ (brcTaken 5 a b = true ↔ b.toNat ≤ a.toNat) ∧ brcTaken 6 a b = true) ∧
  (∀ (s : State) (c : CoreCode) (ctx pc : Nat) (x : BitVec 64), s.Issues c ctx pc x →
    let gives (o : Host.Outcome State Fault Refusal) (v : Word) : Prop := Answers o (fun t => (t.coreAt c).sreg ctx (fld x 52 49) = v)
    (opc x = 0x02 → gives (exec (.salu c) s)
      (salu (fld x 57 53) ((s.coreAt c).sreg ctx (fld x 48 45)) ((s.coreAt c).sreg ctx (fld x 44 41)))) ∧
    (opc x = 0x03 → gives (exec (.sali c) s) (salu (fld x 57 53) ((s.coreAt c).sreg ctx (fld x 48 45)) (BitVec.ofNat 32 (fld x 44 13))))) ∧
  (∀ (v : Word) (width i : Nat), (lowMask width v).testBit i = decide (i < width ∧ (i : Int) < v.toInt))

/-- R184, R186: loops and branches. LOOP sets Ln to its count; a count of 0 skips the body and loses two cycles, another enters it
with none lost. A BRC taken goes to its target, leaves the loops whose body does not hold it, and loses two cycles; one not taken falls
through. After the last word of a body Ln is less by one, and the sequencer goes on at the first word of the body, or past it with Ln
at 0; after any other word it goes on at the next. An issued word is counted and its address kept. -/
def Claims.LoopsAndBranches : Prop :=
  (∀ (s : State) (c : CoreCode) (ctx pc : Nat) (x : BitVec 64), s.Issues c ctx pc x →
    let k := s.coreAt c
    let w := s.wk c
    (opc x = 0x05 →
      let n := fld x 49 38
      let count : Word := if bit x 54 = true then k.sreg ctx (fld x 53 50) else BitVec.ofNat 32 (fld x 37 6)
      (count = 0 → exec (.loop c) s = .next (s.withCore c (((w.setL ctx (fld x 57 55) 0).issued ctx pc 2).modCtx ctx
        (fun y => { y with npc := pc + n + 1 })).c)) ∧
      (count ≠ 0 → exec (.loop c) s = .next (s.withCore c (((w.setL ctx (fld x 57 55) count).issued ctx pc 0).modCtx ctx
        (fun y => { y with npc := pc + 1, loops := ⟨fld x 57 55, pc + 1, pc + n⟩ :: y.loops })).c))) ∧
    (opc x = 0x07 →
      let t := ((pc : Int) + sx (fld x 46 35) 12).toNat
      (brcTaken (fld x 57 55) (k.sreg ctx (fld x 54 51)) (k.sreg ctx (fld x 50 47)) = true → exec (.brc c) s = .next (s.withCore c
        ((w.issued ctx pc 2).modCtx ctx (fun y =>
          { y with npc := t, loops := y.loops.dropWhile (fun l => decide (t < l.first) || decide (l.last < t)) })).c)) ∧
      (brcTaken (fld x 57 55) (k.sreg ctx (fld x 54 51)) (k.sreg ctx (fld x 50 47)) = false → exec (.brc c) s = .next (s.withCore c
        ((w.issued ctx pc 0).backEdge ctx pc).c)))) ∧
  (∀ (w : Wk) (ctx pc : Nat), ctx < 4 → (∀ l ∈ (w.c.ctx ctx).loops, l.ln < 8) →
    let y := ((w.issued ctx pc 0).backEdge ctx pc).c
    y.serial = w.c.serial + 1 ∧ y.issueAt = w.env.cyc + 1 ∧ y.reg 0x010 = satAdd32 (w.c.reg 0x010) 1 ∧ (y.ctx ctx).pc = pc ∧
    (∀ j, j < 16 → y.sreg ctx j = w.c.sreg ctx j) ∧ (∀ o, o ≠ ctx → y.ctx o = w.c.ctx o) ∧
    (∀ l ls, (w.c.ctx ctx).loops = l :: ls → l.last = pc → y.lreg ctx l.ln = w.c.lreg ctx l.ln - 1 ∧
      (w.c.lreg ctx l.ln = 1 → (y.ctx ctx).npc = pc + 1 ∧ (y.ctx ctx).loops = ls) ∧
      (w.c.lreg ctx l.ln ≠ 1 → (y.ctx ctx).npc = l.first ∧ (y.ctx ctx).loops = l :: ls)) ∧
    ((∀ l ls, (w.c.ctx ctx).loops = l :: ls → l.last ≠ pc) → (y.ctx ctx).npc = pc + 1 ∧ (y.ctx ctx).loops = (w.c.ctx ctx).loops ∧
      ∀ j, j < 8 → y.lreg ctx j = w.c.lreg ctx j))

/-- R183, R344: SRD writes the value of its selector, and under selector 4 keeps the high word of the timestamp; selectors 4 and 5 are
time-dependent events in deterministic mode. -/
def Claims.SelectedReads : Prop :=
  ∀ (s : State) (c : CoreCode) (ctx pc : Nat) (x : BitVec 64), s.Issues c ctx pc x → opc x = 0x0B →
    let k := s.coreAt c
    let v : Word := nth 0 [BitVec.ofNat 32 (c.toNat / 64), BitVec.ofNat 32 (c.toNat % 64), BitVec.ofNat 32 ctx,
      if s.die.n4 c.toNat = true then 4 else 8, s.die.ts.setWidth 32, (k.ctx ctx).tsHi, s.die.reg 0xC0004,
      BitVec.ofNat 32 (k.ctx ctx).blk] (fld x 53 50)
    let w := (s.wk c).setS ctx (fld x 57 54) v
    let w := if fld x 53 50 = 4 then w.modCtx ctx (fun y => { y with tsHi := (s.die.ts >>> 32).setWidth 32 }) else w
    ((fld x 53 50 ≠ 4 ∧ fld x 53 50 ≠ 5) ∨ bit (s.die.reg 0xC0000) 31 = false →
      exec (.srd c) s = .next (s.withCore c ((w.issued ctx pc 0).backEdge ctx pc).c)) ∧
    ((fld x 53 50 = 4 ∨ fld x 53 50 = 5) → bit (s.die.reg 0xC0000) 31 = true →
      exec (.srd c) s = .next (s.withDie ((s.die.setCore c.toNat { ((w.issued ctx pc 0).backEdge ctx pc).c with tdev := true }).setReg 0xC0024
        (s.die.reg 0xC0024 ||| 0x80000000))))

/-- R184, R191, R192: END ends the block and its loops, and stops the context under STOP; CTXSW to a context that is READY or STOPPED ends
the block and begins to drain for the switch; to any other it records CTX_STATE and acts as END. A switch that waited for the block
begins to drain; a stepped block halts the core (R507). -/
def Claims.BlocksEnd : Prop :=
  ∀ (s : State) (c : CoreCode) (ctx pc : Nat) (x : BitVec 64), s.Issues c ctx pc x → ctx < 4 →
    let k := s.coreAt c
    (∀ i, (i = Instr.endInstr c ∧ opc x = 0x01) ∨ (i = .ctxsw c ∧ opc x = 0x0D) → Answers (exec i s) (fun t =>
      t = s.withCore c (t.coreAt c) ∧ ((t.coreAt c).ctx ctx).inblk = false ∧ ((t.coreAt c).ctx ctx).loops = [] ∧
      ((t.coreAt c).ctx ctx).pc = pc ∧ (t.coreAt c).reg 0x010 = satAdd32 (k.reg 0x010) 1 ∧ (t.coreAt c).serial = k.serial + 1 ∧
      (k.dbg.stepRun = true → (t.coreAt c).dbg = { k.dbg with stepRun := false, halted := true, cause := 2, hctx := ctx } ∧
        (t.coreAt c).reg 0xF008 = satAdd32 (k.reg 0xF008) 1) ∧
      (k.dbg.stepRun = false → (t.coreAt c).dbg = k.dbg) ∧ (∀ o, o ≠ ctx → (t.coreAt c).ctx o = k.ctx o))) ∧
    (opc x = 0x01 → Answers (exec (.endInstr c) s) (fun t =>
      ((t.coreAt c).ctx ctx).stopping = ((k.ctx ctx).stopping || bit x 57) ∧
      (k.sw = none → (t.coreAt c).sw = none ∧ ((t.coreAt c).ctx ctx).state = (k.ctx ctx).state) ∧
      (∀ g, k.sw = some g → g.draining = false → (k.ctx ctx).stopping = false → bit x 57 = false →
        (t.coreAt c).sw = some { g with draining := true } ∧ ((t.coreAt c).ctx ctx).state = .draining))) ∧
    (opc x = 0x0D → (k.ctx ctx).stopping = false →
      (k.maySwitch (fld x 57 56) = true → Answers (exec (.ctxsw c) s) (fun t =>
        (t.coreAt c).sw = some ⟨ctx, fld x 57 56, false, true, none⟩ ∧ ((t.coreAt c).ctx ctx).state = .draining)) ∧
      (k.maySwitch (fld x 57 56) = false → k.sw = none → Answers (exec (.ctxsw c) s) (fun t =>
        (t.coreAt c).sw = none ∧ ((t.coreAt c).ctx ctx).state = (k.ctx ctx).state ∧
        (t.coreAt c).reg 0x004 = BitVec.ofNat 32 (put 1 31 + put ctx 16 + St.CTX_STATE.toNat))))

/-- Loops and branches, selected reads, and the end of a block. -/
def Obligations.LoopsBranchesAndBlocks : Prop :=
  Claims.LoopsAndBranches ∧ Claims.SelectedReads ∧ Claims.BlocksEnd

/-! ### Firing blocks, contexts and units -/

/-- R187, R188, R507, R551: an evaluation. Of a context that evaluates, with no fault among its guards and no timeout firing waiting,
the lowest-numbered enabled entry whose guard holds fires: its block runs from its first word, two cycles on, its semaphores are
consumed, its count is 0, and the firing is counted; a breakpoint on it halts the core instead. A fault of a guard faults the
context. With no entry that holds, and with no context that evaluates, nothing happens. -/
def Claims.FiringBlocks : Prop :=
  ∀ (s : State) (c : CoreCode), s.die.coreOn c.toNat = true →
    let k := s.coreAt c
    let w := s.wk c
    let holds (ctx b : Nat) : Bool := k.fbOn ctx b && w.guardHolds ctx b
    (w.evaluating = none → exec (.firingBlockFire c) s = .next (s.withCore c k)) ∧
    (∀ ctx st, ctx < 4 → w.evaluating = some ctx → w.guardFault ctx = some st →
      Answers (exec (.firingBlockFire c) s) (fun t => s.Faulted t c ctx 0 (k.ctx ctx).pc st)) ∧
    (∀ ctx, ctx < 4 → w.evaluating = some ctx → w.guardFault ctx = none → (k.ctx ctx).fbPend = [] →
      ((∀ b, b < 16 → holds ctx b = false) → exec (.firingBlockFire c) s = .next (s.withCore c k)) ∧
      (∀ b, b < 16 → holds ctx b = true → (∀ j, j < b → holds ctx j = false) →
        (bit (k.reg 0xF000) b = true → k.dbg.step = false → exec (.firingBlockFire c) s = .next (s.withCore c
          { k with dbg := { k.dbg with halted := true, cause := 1, hctx := ctx, next := b } })) ∧
        (bit (k.reg 0xF000) b = false ∨ k.dbg.step = true → k.inRange ctx (fld (k.fbReg ctx b 0) 11 0) = true →
          Answers (exec (.firingBlockFire c) s) (fun t =>
            let y := t.coreAt c
            (y.ctx ctx).blk = b ∧ (y.ctx ctx).inblk = true ∧ (y.ctx ctx).npc = fld (k.fbReg ctx b 0) 11 0 ∧ (y.ctx ctx).loops = [] ∧
            tget 0 (y.ctx ctx).fbCnt b = 0 ∧ (y.ctx ctx).state = (k.ctx ctx).state ∧ y.issueAt = s.die.cyc + 2 ∧
            y.reg (0x114 + 0x20 * ctx) = satAdd32 (k.reg (0x114 + 0x20 * ctx)) 1 ∧ (∀ j, j < 16 → y.sreg ctx j = k.sreg ctx j) ∧
            y.sems = ((w.consumed ctx b).foldl (fun (w : Wk) (u : Word) => ((w.c.semPhys ctx (fld u 27 22)).map
              (fun p => w.consume p (fld u 15 0))).getD w) w).c.sems ∧
            y.dbg = { k.dbg with stepRun := k.dbg.step, step := false, halted := k.dbg.halted && !k.dbg.step } ∧
            t.die.around = s.die.around ∧ t.die.flog = s.die.flog ∧ t.die.span = s.die.span)))) ∧
    (∀ ctx b, (bit (k.fbReg ctx b 0) 30 = false →
      w.consumed ctx b = (k.fbTerms ctx b).filter (fun u => fld u 31 29 == 1 && bit u 28)) ∧ (w.consumed ctx b).length ≤ 3)

/-- R189: a timeout firing. An entry of the RUNNING context whose count has reached its LIMIT has, with TOEN, its firing wait in ascending order of the
entries, and without
TOEN faults the context with FB_TIMEOUT; before the limit nothing happens. The firing takes the entry that TOTGT names, whatever its guard, and
consumes nothing. -/
def Claims.TimeoutFirings : Prop :=
  ∀ (s : State) (c : CoreCode) (ctx : Nat), s.die.coreOn c.toNat = true → ctx < 4 →
    (s.coreAt c).active = some ctx →
    let k := s.coreAt c
    (∀ b : Fin 16, (k.ctx ctx).state = .running → k.fbOn ctx b.val = true → (k.fbReg ctx b.val 0x10).toNat ≠ 0 →
      (k.fbReg ctx b.val 0x10).toNat ≤ tget 0 (k.ctx ctx).fbCnt b.val → (k.ctx ctx).fbPend.contains b.val = false →
      (bit (k.fbReg ctx b.val 0) 29 = true → exec (.fbTimeout c b) s =
        .next (s.withCore c (k.modCtx ctx (fun y => { y with
          fbPend := y.fbPend.filter (fun x => decide (x < b.val)) ++ [b.val] ++ y.fbPend.filter (fun x => decide (b.val < x)) })))) ∧
      (bit (k.fbReg ctx b.val 0) 29 = false → Answers (exec (.fbTimeout c b) s) (fun t =>
        s.Faulted t c ctx 0 (k.ctx ctx).pc St.FB_TIMEOUT))) ∧
    (∀ b : Fin 16, (tget 0 (k.ctx ctx).fbCnt b.val < (k.fbReg ctx b.val 0x10).toNat ∨ k.fbOn ctx b.val = false ∨
      (k.fbReg ctx b.val 0x10).toNat = 0) → exec (.fbTimeout c b) s = .next (s.withCore c k)) ∧
    (∀ b rest, (s.wk c).evaluating = some ctx → (s.wk c).guardFault ctx = none → (k.ctx ctx).fbPend = b :: rest →
      k.inRange ctx (fld (k.fbReg ctx (fld (k.fbReg ctx b 0) 27 24) 0) 11 0) = true →
      Answers (exec (.firingBlockFire c) s) (fun t =>
        ((t.coreAt c).ctx ctx).blk = fld (k.fbReg ctx b 0) 27 24 ∧ ((t.coreAt c).ctx ctx).inblk = true ∧
        ((t.coreAt c).ctx ctx).npc = fld (k.fbReg ctx (fld (k.fbReg ctx b 0) 27 24) 0) 11 0 ∧ ((t.coreAt c).ctx ctx).fbPend = rest ∧
        (t.coreAt c).sems = k.sems))

/-- The firing of blocks and the timeouts of their guards. -/
def Obligations.FiringBlocks : Prop :=
  Claims.FiringBlocks ∧ Claims.TimeoutFirings

/-- R191, R285, R550: the commands of CORE_CTX_CTL and what they do; one that the context's state does not allow records CTX_STATE and
changes nothing else. A stop takes the context to STOPPED once no block runs and no queue holds its work. -/
def Claims.ContextCommands : Prop :=
  ∀ (s : State) (c : CoreCode) (ctx : Fin 4), s.die.coreOn c.toNat = true →
    let k := s.coreAt c
    let x := k.ctx ctx.val
    let refused : Host.Outcome State Fault Refusal := .next (s.withCore c (k.mark s.die.cyc 0x004
      (BitVec.ofNat 32 (put ctx.val 16 + St.CTX_STATE.toNat))))
    (x.state = .empty → exec (.ctxLoaded c ctx) s = .next (s.withCore c (k.modCtx ctx.val (fun y => { y with state := .ready })))) ∧
    (x.state ≠ .empty → exec (.ctxLoaded c ctx) s = refused) ∧
    (k.mayStart ctx.val = true → Answers (exec (.ctxStart c ctx) s) (fun t => t = s.withCore c (t.coreAt c) ∧
      Core.Started k (t.coreAt c) ctx.val ∧ (t.coreAt c).regs = k.regs ∧ (t.coreAt c).sems = k.sems ∧
      ∀ o, o ≠ ctx.val → (t.coreAt c).ctx o = k.ctx o)) ∧
    (k.mayStart ctx.val = false → exec (.ctxStart c ctx) s = refused) ∧
    (k.mayStart ctx.val = true ↔ (x.state = .ready ∨ x.state = .stopped) ∧ (∀ o, o < 4 → k.ctxBusy o = false) ∧ k.sw = none) ∧
    (x.state = .running → exec (.ctxStop c ctx) s = .next (s.withCore c (k.modCtx ctx.val (fun y => { y with stopping := true })))) ∧
    (x.state ≠ .running → exec (.ctxStop c ctx) s = refused) ∧
    (k.ctxBusy ctx.val = false → Answers (exec (.ctxClear c ctx) s) (fun t =>
      let y := t.coreAt c
      (y.ctx ctx.val).state = .empty ∧ (∀ b, b < 16 → y.fbOn ctx.val b = false) ∧
      (∀ h, h < 16 → bit (y.reg (0x1000 + 0x80 * ctx.val + 8 * h)) 31 = false) ∧
      (∀ j, j < 8 → fld (k.reg (0x1200 + 16 * j)) 26 25 = ctx.val → bit (y.reg (0x1200 + 16 * j)) 31 = false) ∧
      (∀ id p, id < 64 → k.semPhys ctx.val id = some p → (y.sem p).orph = true) ∧
      (∀ o, o ≠ ctx.val → y.ctx o = k.ctx o) ∧ (∀ o j, o < 4 → j < 16 → y.sreg o j = k.sreg o j) ∧ t.die.around = s.die.around)) ∧
    (k.ctxBusy ctx.val = true → exec (.ctxClear c ctx) s = refused) ∧
    (x.state = .running → x.stopping = true → x.inblk = false → k.holdsWork s.die.cyc ctx.val = false →
      (k.sw = none ∨ ∃ g, k.sw = some g ∧ g.draining = true) → exec (.contextStopped c ctx) s =
        .next (s.withCore c (k.modCtx ctx.val (fun y => { y with state := .stopped, stopping := false })))) ∧
    ((x.state ≠ .running ∨ x.stopping = false ∨ x.inblk = true ∨ k.holdsWork s.die.cyc ctx.val = true) →
      exec (.contextStopped c ctx) s = .next (s.withCore c k))

/-- R192, R285, R506: a switch by CORE_SEQ_SWITCH marks the span dirty with PREEMPTED and drains the running context, at once with no block
running and no halt, at the block's end otherwise; without a target that is READY or STOPPED it records CTX_STATE. Once the old context's work
is gone reconfiguration begins; when it ends, within 2,400 cycles, the old context is READY and the target has
started, or is refused with CTX_STATE where it may no longer start (the choice of log 41). -/
def Claims.ContextSwitches : Prop :=
  ∀ (s : State) (c : CoreCode), s.die.coreOn c.toNat = true →
    let k := s.coreAt c
    (∀ (t : Fin 4) (ctx : Nat), k.active = some ctx → k.maySwitch t.val = true → k.sw = none →
      ((k.ctx ctx).inblk = true ∨ k.dbg.halted = true → exec (.seqSwitch c t) s = .next (s.withDie ((s.die.setCore c.toNat
        { k with sw := some ⟨ctx, t.val, true, false, none⟩ }).coreFault c ctx St.PREEMPTED))) ∧
      ((k.ctx ctx).inblk = false → k.dbg.halted = false → exec (.seqSwitch c t) s = .next (s.withDie ((s.die.setCore c.toNat
        { k.modCtx ctx (fun y => { y with state := .draining }) with sw := some ⟨ctx, t.val, true, true, none⟩ }).coreFault c ctx
          St.PREEMPTED)))) ∧
    (∀ t : Fin 4, k.active = none ∨ k.maySwitch t.val = false ∨ k.sw ≠ none → exec (.seqSwitch c t) s = .next (s.withCore c
      (k.mark s.die.cyc 0x004 (BitVec.ofNat 32 (put t.val 16 + St.CTX_STATE.toNat))))) ∧
    (∀ n, k.sw = none → exec (.switchDrained c n) s = .next (s.withCore c k)) ∧
    (∀ n g, k.sw = some g →
      (g.draining = false ∨ k.holdsWork s.die.cyc g.old = true → exec (.switchDrained c n) s = .next (s.withCore c k)) ∧
      (g.draining = true → k.holdsWork s.die.cyc g.old = false → g.reconf = none → exec (.switchDrained c n) s = .next (s.withCore c
        { k with sw := some { g with reconf := some s.die.cyc } })) ∧
      (∀ t0, g.draining = true → k.holdsWork s.die.cyc g.old = false → g.reconf = some t0 →
        (s.die.cyc < t0 + min n 2400 → exec (.switchDrained c n) s = .next (s.withCore c k)) ∧
        (t0 + min n 2400 ≤ s.die.cyc → g.old ≠ g.target → k.maySwitch g.target = true → (k.ctx g.old).state ≠ .running →
          (∀ o, o < 4 → o ≠ g.old → k.ctxBusy o = false) → Answers (exec (.switchDrained c n) s) (fun t =>
          (t.coreAt c).sw = none ∧ Core.Started k (t.coreAt c) g.target ∧
          ((t.coreAt c).ctx g.old).state = (if (k.ctx g.old).state = .draining then .ready else (k.ctx g.old).state) ∧
          (t.coreAt c).v = k.v ∧ (t.coreAt c).mx = k.mx ∧ t.die.around = s.die.around)) ∧
        (t0 + min n 2400 ≤ s.die.cyc → g.old ≠ g.target → k.maySwitch g.target = false → Answers (exec (.switchDrained c n) s) (fun t =>
          (t.coreAt c).sw = none ∧ ((t.coreAt c).ctx g.target).state = (k.ctx g.target).state ∧
          fld ((t.coreAt c).reg 0x004) 15 0 = St.CTX_STATE.toNat ∧ t.die.around = s.die.around))))

/-- The commands of a context and the switches between contexts. -/
def Obligations.Contexts : Prop :=
  Claims.ContextCommands ∧ Claims.ContextSwitches

/-- R199 to R201: a unit that drains refuses new work until its queue and pipeline are empty and is then disabled; a forced disable discards
its queue, records UNIT_FORCED, and the span is dirty; a disabled unit is enabled again, and decode
takes instructions for it from the next cycle on. A step from any other state changes nothing. -/
def Claims.Units : Prop :=
  ∀ (s : State) (c : CoreCode) (u : Fin 5), s.die.coreOn c.toNat = true →
    let k := s.coreAt c
    let set (n : Nat) : Host.Outcome State Fault Refusal := .next (s.withCore c { k with units := tset 0 k.units u.val n })
    let same : Host.Outcome State Fault Refusal := .next (s.withCore c k)
    (k.unit u.val = 0 → exec (.unitDrain c u) s = set 1) ∧ (k.unit u.val ≠ 0 → exec (.unitDrain c u) s = same) ∧
    (k.unit u.val = 1 → k.unitBusy s.die.cyc u.val = false → exec (.unitDrained c u) s = set 2) ∧
    ((k.unit u.val ≠ 1 ∨ k.unitBusy s.die.cyc u.val = true) → exec (.unitDrained c u) s = same) ∧
    (k.unit u.val = 2 → exec (.unitReen c u) s = .next (s.withCore c { k with
      units := tset 0 k.units u.val 0, reen := tset 0 k.reen u.val (s.die.cyc + 1) })) ∧
    (∀ x, queueOf x = u.val + 1 → opReserved (opc x) = false → fieldReserved x = false → k.annex = false →
      (k.unit u.val ≠ 0 ∨ s.die.cyc < tget 0 k.reen u.val) → ∀ ctx pc, k.decodeBad s.die.cyc ctx pc x = some St.UNIT_DISABLED) ∧ (k.unit u.val ≠ 2 → exec (.unitReen c u) s = same) ∧
    (k.unit u.val = 2 → exec (.unitForce c u) s = same) ∧
    (k.unit u.val ≠ 2 → Answers (exec (.unitForce c u) s) (fun t =>
      (t.coreAt c).unit u.val = 2 ∧ (t.coreAt c).queue (u.val + 1) = [] ∧
      fld ((t.coreAt c).reg 0x004) 15 0 = St.UNIT_FORCED.toNat ∧
      (∀ q, q ≠ u.val + 1 → (t.coreAt c).queue q = k.queue q) ∧ (∀ o, o ≠ u.val → (t.coreAt c).unit o = k.unit o) ∧
      (u.val = 3 → ∀ ch, ch < 4 → ((t.coreAt c).chan ch).run = none) ∧ (t.coreAt c).ctxs = k.ctxs ∧ (t.coreAt c).sems = k.sems ∧
      t.die.around = s.die.around ∧ (s.die.flog.length < 32 → ∃ e ∈ t.die.flog, e.src = 0 ∧ e.loc = c.toNat ∧ e.st = St.UNIT_FORCED)))

/-- R506 to R508: HALT is pending until its context stands between blocks, and then halts the core; STEP lets one evaluation through and
RESUME all of them, each refused with CTX_STATE on a core that is not halted; the die-wide forms reach every core at work. -/
def Claims.DebugCommands : Prop :=
  ∀ (s : State) (c : CoreCode), s.die.coreOn c.toNat = true →
    let k := s.coreAt c
    let refused : Host.Outcome State Fault Refusal := .next (s.withCore c (k.mark s.die.cyc 0x004
      (BitVec.ofNat 32 (put (k.active.getD 0) 16 + St.CTX_STATE.toNat))))
    (exec (.dbgHalt c) s = .next (s.withCore c { k with dbg := { k.dbg with pend := !k.dbg.halted, pendCause := 0 } })) ∧
    (∀ ctx, k.active = some ctx →
      (k.dbg.pend = true → (k.ctx ctx).state = .running → (k.ctx ctx).inblk = false → exec (.debugHaltEffect c) s = .next (s.withCore c
        { k with dbg := { k.dbg with pend := false, halted := true, cause := k.dbg.pendCause, hctx := ctx, step := false } })) ∧
      ((k.dbg.pend = false ∨ (k.ctx ctx).state ≠ .running ∨ (k.ctx ctx).inblk = true) →
        exec (.debugHaltEffect c) s = .next (s.withCore c k))) ∧
    (k.active = none → exec (.debugHaltEffect c) s = .next (s.withCore c k)) ∧
    (k.dbg.halted = true → exec (.dbgStep c) s = .next (s.withCore c { k with dbg := { k.dbg with step := true } })) ∧
    (k.dbg.halted = false → exec (.dbgStep c) s = refused ∧ exec (.dbgResume c) s = refused) ∧
    (k.dbg.halted = true → k.sw = none → exec (.dbgResume c) s = .next (s.withCore c { k with
      dbg := { k.dbg with halted := false, step := false, pend := false }, issueAt := max k.issueAt (s.die.cyc + 1) })) ∧
    (Answers (exec .haltAll s) (fun t => t.die.regs = s.die.regs ∧ t.die.around = s.die.around ∧ ∀ c' : CoreCode, t.coreAt c' =
      (if s.die.coreOn c'.toNat = true then { s.coreAt c' with dbg := { (s.coreAt c').dbg with
        pend := !(s.coreAt c').dbg.halted, pendCause := 3 } } else s.coreAt c'))) ∧
    (Answers (exec .resumeAll s) (fun t => t.die.around = s.die.around ∧ ∀ c' : CoreCode,
      (s.die.coreOn c'.toNat = true → (t.coreAt c').dbg.halted = false) ∧ (s.die.coreOn c'.toNat = false → t.coreAt c' = s.coreAt c')))

/-- Units drained, disabled and re-enabled; halts, steps and resumes of debug. -/
def Obligations.UnitsAndDebug : Prop :=
  Claims.Units ∧ Claims.DebugCommands

/-! ### The matrix unit -/

/-- R90, with R89: MXCFG and MVCFG set the configuration that their fields give; they are refused, and both configurations stay, for a
type code that is reserved or names E3M2, E2M3 or INT32 (BAD_TYPE), for a pair that R41 does not allow (BAD_TYPE_PAIR), for block scales on a type that
has none, and for an exponent of 0x80 (BAD_TYPE). Every other part of the core is as the issue of the instruction leaves it. -/
def Obligations.MatrixConfiguration : Prop :=
  ∀ (s : State) (c : CoreCode) (ctx pc : Nat) (x : BitVec 64), ctx < 4 →
    let k := (s.issuedWk c ctx pc x).c
    (s.Runs c ctx pc x 0x21 →
      (∀ m, decodeMxCfg x = .inl m → exec (.mxcfg c) s = .next (s.withCore c { k with mx := { k.mx with cfgM := m }, queues := [] })) ∧
      (∀ st, decodeMxCfg x = .inr st → Answers (exec (.mxcfg c) s) (fun t => s.Faulted t c ctx 1 pc st ∧
        (t.coreAt c).mx.cfgM = k.mx.cfgM ∧ (t.coreAt c).mx.cfgV = k.mx.cfgV))) ∧
    (s.Runs c ctx pc x 0x29 →
      (∀ m, decodeMxCfg x = .inl m → exec (.mvcfg c) s = .next (s.withCore c { k with mx := { k.mx with cfgV := m }, queues := [] })) ∧
      (∀ st, decodeMxCfg x = .inr st → Answers (exec (.mvcfg c) s) (fun t => s.Faulted t c ctx 2 pc st ∧
        (t.coreAt c).mx.cfgM = k.mx.cfgM ∧ (t.coreAt c).mx.cfgV = k.mx.cfgV))) ∧
    (∀ m, decodeMxCfg x = .inl m → (pairK m.a m.b).isSome = true ∧ typeOfCode (fld x 57 54) = some m.a ∧ typeOfCode (fld x 53 50) = some m.b ∧
      m.amx = bit x 49 ∧ m.bmx = bit x 48 ∧ m.apts = bit x 47 ∧ m.bpts = bit x 46 ∧ m.aexp = sx (fld x 45 38) 8 ∧
      m.bexp = sx (fld x 37 30) 8 ∧ m.stride = 4 * fld x 29 14 ∧ (m.amx = true → m.a ∈ [ElemType.e4m3, .e5m2, .e2m1, .int8]) ∧
      (m.bmx = true → m.b ∈ [ElemType.e4m3, .e5m2, .e2m1, .int8])) ∧
    (let typeBad (t : Option ElemType) : Prop := t = none ∨ t = some .e3m2 ∨ t = some .e2m3 ∨ t = some .int32
     let mxBad (m : Bool) (t : ElemType) : Prop := m = true ∧ t ∉ [ElemType.e4m3, .e5m2, .e2m1, .int8]
     let ta := typeOfCode (fld x 57 54)
     let tb := typeOfCode (fld x 53 50)
     let expBad : Prop := fld x 45 38 = 0x80 ∨ fld x 37 30 = 0x80
     ((typeBad ta ∨ typeBad tb) → decodeMxCfg x = .inr St.BAD_TYPE) ∧
     (∀ a b, ta = some a → tb = some b → ¬ typeBad ta → ¬ typeBad tb →
       let mx : Prop := mxBad (bit x 49) a ∨ mxBad (bit x 48) b
       (pairK a b = none → ¬ mx → ¬ expBad → decodeMxCfg x = .inr St.BAD_TYPE_PAIR) ∧
       (pairK a b = none → ∀ m, decodeMxCfg x ≠ .inl m) ∧
       ((pairK a b).isSome = true → (mx ∨ expBad) → decodeMxCfg x = .inr St.BAD_TYPE) ∧
       ((pairK a b).isSome = true → ¬ mx → ¬ expBad → ∃ m, decodeMxCfg x = .inl m)))

/-- R91, R93, R94, R106: MXB, MXSC and MVX load a slot of B, a set of block scales, a slot of X: the elements at their places of the bytes
read, decoded under the configuration and the scales in force; each line read is an access for its bank to serve. -/
def Claims.MatrixOperands : Prop :=
  ∀ (s : State) (c : CoreCode) (ctx pc : Nat) (x : BitVec 64) (bytes : List Byte),
    let w := s.issuedWk c ctx pc x
    let k := w.c
    let gives (h : Nat) (os : List Int) (m : Matrix) : Host.Outcome State Fault Refusal :=
      .next (s.withCore c { k with mx := m, ports := k.ports ++ w.asks ctx h portFeeder 0 false os, queues := [] })
    (s.Runs c ctx pc x 0x22 →
      let cfg := k.mx.cfgM
      let t := cfg.b
      let a := w.addr ctx (fld x 45 31) 4 (bit x 50) (fld x 49 46)
      let bm := fld x 56 55
      let os := if t.planar then (List.range t.bits).flatMap (fun j => span (a + (16 * j + (if bm = 2 then 8 else 0) : Nat)) 8) else span a 32
      (if t.planar then (bm = 0 ∨ bm = 2) ∧ a % 64 = 0 else bm < 2) → w.Reads ctx (fld x 54 51) os bytes →
      exec (.mxb c) s = gives (fld x 54 51) os { k.mx with slot := tset .empty k.mx.slot (fld x 57 57) ⟨some t, cfg.bmx || cfg.bpts,
        (List.range t.opK).map (fun r => (List.range 8).map (fun n => decodeOp t cfg.bmx (nth 0x7F k.mx.bscale n) cfg.bScale
          (if t.planar then bitsOf t.bits (fun j => bit (nth 0 bytes (8 * j + r)) n)
            else elemAt bytes t.bytes (if bm = 0 then 8 * r + n else t.opK * n + r))))⟩ }) ∧
    (s.Runs c ctx pc x 0x23 →
      let idx := fld x 55 52
      let rep := fld x 51 48
      let a := w.addr ctx (fld x 38 22) 1 (bit x 43) (fld x 42 39)
      let part (z j : Nat) : List Nat := ((bytes.drop (z * j)).take z).map (fun b : Byte => b.toNat)
      (fld x 57 56 = 0 → w.Reads ctx (fld x 47 44) (span a (16 * (rep + 1))) bytes → exec (.mxsc c) s =
        gives (fld x 47 44) (span a (16 * (rep + 1))) { k.mx with ascale := iter (rep + 1) (fun j t => tset (List.replicate 16 0x7F) t ((idx + j) % 16) (part 16 j)) k.mx.ascale }) ∧
      (fld x 57 56 = 1 → rep = 0 → w.Reads ctx (fld x 47 44) (span a 8) bytes → exec (.mxsc c) s =
        gives (fld x 47 44) (span a 8) { k.mx with bscale := part 8 0 }) ∧
      (fld x 57 56 = 2 → w.Reads ctx (fld x 47 44) (span a (8 * (rep + 1))) bytes → exec (.mxsc c) s =
        gives (fld x 47 44) (span a (8 * (rep + 1))) { k.mx with wscale := iter (rep + 1) (fun j t => tset (List.replicate 8 0x7F) t ((idx + j) % 16) (part 8 j)) k.mx.wscale }) ∧
      (fld x 57 56 = 3 → rep = 0 → w.Reads ctx (fld x 47 44) (span a 1) bytes → exec (.mxsc c) s =
        gives (fld x 47 44) (span a 1) { k.mx with xscale := tset 0x7F k.mx.xscale (idx % 2) ((part 1 0).headD 0x7F) })) ∧
    (s.Runs c ctx pc x 0x28 →
      let cfg := k.mx.cfgV
      let t := cfg.b
      let a := w.addr ctx (fld x 47 31) 1 (bit x 52) (fld x 51 48)
      let m := (a % 64 / 2).toNat
      (t.planar = true → a % 2 = 0 ∧ m < 8) →
      let os := if t.planar then span (a - a % 64) 64 else span a (16 * t.bytes)
      w.Reads ctx (fld x 56 53) os bytes →
      exec (.mvx c) s = gives (fld x 56 53) os { k.mx with slot := tset .empty k.mx.slot (2 + fld x 57 57) ⟨some t, cfg.bmx || cfg.bpts,
        [(List.range 16).map (fun j => decodeOp t cfg.bmx (w.xscale (fld x 57 57)) cfg.bScale
          (if t.planar then planeElem bytes t.bits (16 * m + j) else elemAt bytes t.bytes j))]⟩ })

/-- R69, R102 to R104, R110: MXLD fills a block with the elements read, canonical in FP32; MXD writes the enabled elements of a block, its
open group closed, as they are or converted, and empties the block unless KEEP; a vector block drained to a type of 4 or 6 bits fills the
rest of its plane group with 0 (R49). A load is an array operation: the block is busy for ten cycles. A drain of a busy block waits. -/
def Claims.MatrixLoadsAndDrains : Prop :=
  ∀ (s : State) (c : CoreCode) (ctx pc : Nat) (x : BitVec 64),
    let w := s.issuedWk c ctx pc x
    let k := w.c
    let e := (s.coreAt c).entry ctx pc x
    let bi := fld x 57 54 + 16 * fld x 53 53
    let a := w.addr ctx (fld x 42 28) 4 (bit x 47) (fld x 46 43)
    let counted (y : Core) (ev : NumEv) : Core := (({ w with c := y }).countNum ev).c
    (s.Runs c ctx pc x 0x24 → w.Accepts (fld x 53 53) bi → ∀ bytes,
      let n := if bit x 53 = true then 8 else 128
      let asked := w.asks ctx (fld x 51 48) portFeeder (64 + bi) false (span a (4 * n))
      w.Reads ctx (fld x 51 48) (span a (4 * n)) bytes →
      exec (.mxld c) s = .next (s.withCore c (Core.bump { k with
        mx := Matrix.taken { k.mx with
          blk := tset .empty k.mx.blk bi ⟨some (if bit x 52 = true then .int32 else .fp32), (List.range n).map (fun i =>
            BitVec.ofNat 32 (if bit x 52 = true then elemAt bytes 4 i else canonBits .fp32 (elemAt bytes 4 i))), []⟩ }
          (fld x 53 53) bi s.die.cyc 10 (max (if bit x 53 = true then 1 else 8) (feederCycles asked))
        ports := k.ports ++ asked
        ballast := tset .released k.ballast (fld x 53 53) (.active s.die.cyc)
        queues := [] } s.die.cyc 0x704 1))) ∧
    (s.Runs c ctx pc x 0x25 → s.die.cyc < tget 0 k.mx.blkFree bi → exec (.mxd c) s = .next (s.withCore c k)) ∧
    (s.Runs c ctx pc x 0x25 → tget 0 k.mx.blkFree bi ≤ s.die.cyc → ∀ (b : AccBlock) (src : ElemType) (cv : Option Cvt) (y : Core),
      tget .empty k.mx.blk bi = b → (b.kind = some .fp32 ∧ src = .fp32 ∨ b.kind = some .int32 ∧ src = .int32) →
      (if bit x 27 = true then cv ≠ none ∧ w.cvt (k.sreg ctx (fld x 26 23)) = cv ∧
        ∀ v, cv = some v → v.src = src ∧ v.srcMx = false ∧ v.dstMx = false else cv = none) →
      let dt := (cv.map (fun v => v.dst)).getD src
      let on (i : Nat) : Bool := if bit x 53 then bit e.p i && bit e.sr i else bit e.p (i / 8) && bit e.sr (i / 8) && bit e.q (i % 8) && bit e.sc (i % 8)
      let idx := (List.range b.close.1.els.length).filter on
      let elem (i : Nat) : Nat × NumEv := match cv with
        | none => ((nth 0 b.close.1.els i).toNat, {})
        | some v => v.elem 0 (w.uFor v ctx i) (nth 0 b.close.1.els i).toNat
      let ev := idx.foldl (fun a i => a.add (elem i).2) b.close.2
      let ws := storeElems a dt (idx.map (fun i => (i, (elem i).1)) ++
        if bit x 53 = true ∧ dt.planar = true then (List.range 120).map (fun i => (i + 8, 0)) else [])
      let asked := w.asks ctx (fld x 51 48) portFeeder (5 + fld x 53 53) true (ws.map (·.1))
      (dt.planar = true → a % 64 = 0) → w.Writes ctx (fld x 51 48) portFeeder ws y →
      exec (.mxd c) s = .next (s.withCore c (counted { y with
        mx := { k.mx with
          blk := tset .empty k.mx.blk bi (if bit x 52 = true then b.close.1 else .empty), blkFree := tset 0 k.mx.blkFree bi (s.die.cyc + 1)
          drained := tset 0 k.mx.drained (fld x 53 53) (s.die.cyc + (if bit x 27 = true then 3 else 1) + asked.length) }
        ports := k.ports ++ asked, queues := [] } ev)))

/-- The loads of B, X, scales and accumulator blocks, and the drain of a block. -/
def Obligations.MatrixMoves : Prop :=
  Claims.MatrixOperands ∧ Claims.MatrixLoadsAndDrains

/-- R97, R105, R107, R109, R110: MXM is expanded at the head of its queue, its address formed, and its operations are then taken one by one;
MXEW and a one-operation MVM are taken as they issue, or wait. An operation reads its operands, forms the products of the enabled
outputs and adds them to its block, which is cleared first when it starts accumulation; the array or the path is busy for its occupancy (R110, and
at N = 4 R115), never less than its feeder reads take. -/
def Claims.MatrixProducts : Prop :=
  let counted (w : Wk) (y : Core) (ev : NumEv) (off : Nat) : Core := ((({ w with c := y }).countNum ev).bump off 1).c
  (∀ (s : State) (c : CoreCode) (ctx pc : Nat) (x : BitVec 64), s.Runs c ctx pc x 0x20 →
    let w := s.issuedWk c ctx pc x
    exec (.mxm c) s = .next (s.withCore c { w.c with queues := [(1, [{ (s.coreAt c).entry ctx pc x with
      started := true, addr := w.addr ctx (fld x 26 12) 4 (bit x 31) (fld x 30 27) }])] })) ∧
  (∀ (s : State) (c : CoreCode), s.die.coreOn c.toNat = true → (s.coreAt c).queue 1 = [] →
    exec (.arrayOperation c) s = .next (s.withCore c (s.coreAt c))) ∧
  (∀ (s : State) (c : CoreCode) (e : QEntry) (es : List QEntry) (bytes : List Byte) (tb : ElemType) (kk : Nat) (b : AccBlock),
    s.die.coreOn c.toNat = true → (s.coreAt c).queue 1 = e :: es → opc e.word = 0x20 → e.started = true →
    let w := s.wk c
    let k := s.coreAt c
    let x := e.word
    let cfg := k.mx.cfgM
    let blk := (fld x 57 54 + e.done) % 16
    let a := e.addr + (4 * e.done * fld x 7 0 : Nat)
    let ash := fld x 48 44
    let ch := fld x 52 51
    let h := fld x 37 34
    let rows := if k.annex then 8 else 16
    let n := if ash = 0 then 0 else min ash rows
    let tw := if ash = 0 then (w.win blk).typ.getD cfg.a else cfg.a
    let slot := w.slot (fld x 53 53)
    let wscaled := (ash ≠ 0 && (cfg.amx || cfg.apts)) || (ash < rows && (w.win blk).scaled)
    let os := if n = 0 then [] else aOffs cfg.a (fld x 33 32) cfg.stride a n
    let asked := w.asks e.ctx h portFeeder (64 + blk) false os
    ¬ (w.env.width = 4 ∧ ch = 3) → mxmModeBad k.annex cfg.a (fld x 33 32) ash ch a (w.win blk) = none → slot.typ = some tb →
    pairK tw tb = some kk →
    (w.blk blk).begin (bit x 49) (familyKind tw (wscaled || slot.scaled)) 128 = .inl b → w.Reads e.ctx h os bytes → w.Accepts 0 blk →
    let new := aRows cfg (w.ascale blk) (rows - n) n bytes
    let win : Operand := if ash = 0 then w.win blk else if rows ≤ ash then ⟨some cfg.a, wscaled, new⟩
      else ⟨some cfg.a, wscaled, (w.win blk).rows.drop n ++ new⟩
    let done := applyProducts k.annex (tw == .fp32) (bit x 50) b (mxmSteps win.rows slot.rows kk rows (fun r => bit e.p r && bit e.sr r)
      (fun j => bit e.q j && bit e.sc j && (if j < 4 then ch % 2 == 1 else ch / 2 == 1)) (fun j => bit e.q (8 + j) && bit e.sk j))
    exec (.arrayOperation c) s = .next (s.withCore c (counted w { k with
      mx := Matrix.taken { k.mx with blk := tset .empty k.mx.blk blk done.1, win := tset .empty k.mx.win blk win } 0 blk s.die.cyc
        (if tw = .fp32 then 26 else 11) (max (if tw = .fp32 then 16 else 1) (feederCycles asked))
      ports := k.ports ++ asked
      ballast := tset .released k.ballast 0 (.active s.die.cyc)
      queues := tset [] k.queues 1 (if fld x 11 8 ≤ e.done then es else { e with done := e.done + 1 } :: es) } done.2 0x704))) ∧
  (∀ (s : State) (c : CoreCode) (ctx pc : Nat) (x : BitVec 64) (ab bb : List Byte) (b : AccBlock), s.Runs c ctx pc x 0x26 →
    let w := s.issuedWk c ctx pc x
    let k := w.c
    let e := (s.coreAt c).entry ctx pc x
    let cfg := k.mx.cfgM
    let blk := fld x 57 54
    cfg.amx = false → cfg.bmx = false → cfg.a ≠ .fp32 → (pairK cfg.a cfg.b).isSome = true →
    (cfg.a.planar = true → 4 * fld x 45 31 % 64 = 0 ∧ 4 * fld x 30 16 % 64 = 0) →
    (w.blk blk).begin (bit x 15) (familyKind cfg.a (cfg.apts || cfg.bpts)) 128 = .inl b →
    w.Reads ctx (fld x 53 50) (span (4 * fld x 45 31 : Nat) cfg.a.tileBytes) ab →
    w.Reads ctx (fld x 49 46) (span (4 * fld x 30 16 : Nat) cfg.b.tileBytes) bb → w.Accepts 0 blk →
    let done := b.pushAll [(List.range 128).map (fun i => if bit e.p (i / 8) && bit e.sr (i / 8) && bit e.q (i % 8) && bit e.sc (i % 8) then
      some (product (nth .nan (tileVals cfg.a cfg.aScale ab) i) (nth .nan (tileVals cfg.b cfg.bScale bb) i)) else none)] true
    exec (.mxew c) s = .next (s.withCore c (counted w { k with
      mx := Matrix.taken { k.mx with blk := tset .empty k.mx.blk blk done.1 } 0 blk s.die.cyc 14
        (max 4 (w.mxewCycles e) * (if w.env.width = 4 then 2 else 1))
      ports := k.ports ++ w.asks ctx (fld x 53 50) portFeeder (64 + blk) false (span (4 * fld x 45 31 : Nat) cfg.a.tileBytes) ++
        w.asks ctx (fld x 49 46) portFeeder (64 + blk) false (span (4 * fld x 30 16 : Nat) cfg.b.tileBytes)
      ballast := tset .released k.ballast 0 (.active s.die.cyc), queues := [] } done.2 0x704))) ∧
  (∀ (s : State) (c : CoreCode) (ctx pc : Nat) (x : BitVec 64) (bytes : List Byte) (tb : ElemType) (b : AccBlock), s.Runs c ctx pc x 0x2A →
    fld x 24 21 = 0 →
    let w := s.issuedWk c ctx pc x
    let k := w.c
    let e := (s.coreAt c).entry ctx pc x
    let cfg := k.mx.cfgV
    let t := cfg.a
    let yb := fld x 57 54
    let a := w.addr ctx (fld x 42 28) 4 (bit x 47) (fld x 46 43)
    let slot := w.slot (2 + fld x 53 53)
    (t.planar = true → a % 64 = 0) → slot.typ = some tb → t ≠ .fp32 → (pairK t tb).isSome = true →
    (w.blk (16 + yb)).begin (bit x 52) (familyKind t (cfg.amx || cfg.apts || slot.scaled)) 8 = .inl b →
    w.Reads ctx (fld x 51 48) (span a t.tileBytes) bytes → w.Accepts 1 (16 + yb) →
    let wv (j i : Nat) : Val := decodeOp t cfg.amx (nth 0x7F (w.wscale yb) j) cfg.aScale
      (if t.planar then planeElem bytes t.bits (16 * j + i) else elemAt bytes t.bytes (16 * j + i))
    let done := b.pushAll ((List.range 16).map (fun i => (List.range 8).map (fun j => if bit e.p j && bit e.sr j then
      some (if bit e.sc i then product (wv j i) (nth .nan (slot.rows.headD []) i) else (.fin false 0 0, 0)) else none))) true
    let near := if t.planar then t.tileBytes else t.tileBytes / 2
    exec (.mvm c) s = .next (s.withCore c (counted w { k with
      mx := Matrix.taken { k.mx with blk := tset .empty k.mx.blk (16 + yb) done.1 } 1 (16 + yb) s.die.cyc
        (if t.bits = 16 then 10 else 9) (if t.bits = 16 then 2 else 1)
      ports := k.ports ++ w.asks ctx (fld x 51 48) portFeeder (80 + yb) false (span a near) ++
        w.asks ctx (fld x 51 48) portVector (80 + yb) false (span (a + near) (t.tileBytes - near))
      ballast := tset .released k.ballast 1 (.active s.die.cyc), queues := [] } done.2 0x718)))

/-- R114, R395: the end of an eight-cycle period moves a ramp's level by one, up while operations were ready and down otherwise, within 0 to
4; at level 0 the unit's cell stays engaged and the unit is idle. Before the period has run nothing happens. At each level the ramp
allows that many of the four cycles of a frame. -/
def Claims.ActivityRamps : Prop :=
  (∀ (s : State) (c : CoreCode) (u : Fin 2), s.die.coreOn c.toNat = true →
    let k := s.coreAt c
    let r := k.mx.ramp u.val
    let up := r.ready || (s.wk c).opReady u.val
    let n : Ramp := ⟨if up = true then min 4 (r.level + 1) else r.level - 1, r.start + 8, false⟩
    (r.level = 0 ∨ s.die.cyc < r.start + 8 → exec (.rampPeriodEnd c u) s = .next (s.withCore c k)) ∧
    (r.level ≠ 0 → r.start + 8 ≤ s.die.cyc → n.level ≠ 0 →
      exec (.rampPeriodEnd c u) s = .next (s.withCore c { k with mx := k.mx.setRamp u.val n })) ∧
    (r.level ≠ 0 → r.start + 8 ≤ s.die.cyc → n.level = 0 → exec (.rampPeriodEnd c u) s = .next (s.withCore c { k with
      mx := k.mx.setRamp u.val n, ballast := tset .released k.ballast u.val (.engaged s.die.cyc) }))) ∧
  (∀ l, l ≤ 4 → (List.range 4).countP (rampAllows l) = l) ∧
  (∀ r : Ramp, r.level ≤ 4 → r.periodEnd.level ≤ 4 ∧ (∀ cyc, (r.onReady cyc).level ≤ 4 ∧ 1 ≤ (r.onReady cyc).level))

/-- MXM, MXEW and MVM, their operations, and the activity ramps. -/
def Obligations.MatrixProducts : Prop :=
  Claims.MatrixProducts ∧ Claims.ActivityRamps

/-! ### The vector engine -/

/-- R122 to R126, R129, R130, R138: VOP, VRED and VMS, taken by a free pipe of an engine that has its grant: each enabled element of the
destination takes the function of the sources' elements under their views; a reduction combines the enabled elements, the others
counting as its identity; VMS moves one element or fills the enabled ones. -/
def Claims.VectorOperations : Prop :=
  ∀ (s : State) (c : CoreCode) (ctx pc : Nat) (x : BitVec 64),
    let w := s.issuedWk c ctx pc x
    let e := (s.coreAt c).entry ctx pc x
    let gives (f : Wk → Wk) : Host.Outcome State Fault Refusal := .next (s.withCore c (w.veTaken e f))
    let old := w.vreg (fld x 51 47)
    let on := w.vecOn e (bit x 18) (fld x 17 13)
    let fn := fld x 57 52
    let a (i : Nat) : Word := viewAt (w.vreg (fld x 46 42)) (fld x 31 30) (i / 16) (i % 16)
    let into (f : Nat → Word × NumEv) : List Word := old.mapIdx (fun i o => if on i then (f i).1 else o)
    let events (f : Nat → Word × NumEv) : NumEv := ((List.range 128).filter on).foldl (fun z i => z.add (f i).2) {}
    (s.Runs c ctx pc x 0x30 → w.VeTakes e → old.length = 128 → fn ≠ 0x14 → fn ≠ 0x15 → ∀ f : Nat → Word × NumEv,
      (∀ i, vopFn fn (bit x 25) (a i) (viewAt (w.vreg (fld x 41 37)) (fld x 29 28) (i / 16) (i % 16))
        (viewAt (w.vreg (fld x 36 32)) (fld x 27 26) (i / 16) (i % 16)) = some (f i)) →
      exec (.vop c) s = gives (fun w => (w.setV (fld x 51 47) (into f)).countVec (events f))) ∧
    (s.Runs c ctx pc x 0x30 → w.VeTakes e → old.length = 128 → fn = 0x14 → exec (.vop c) s = gives (fun w => w.setV (fld x 51 47) (into (fun i =>
      quiet (viewAt (w.vreg (fld x 46 42)) (fld x 31 30) (i / 16) ((i % 16 + fld x 35 32) % 16)))))) ∧
    (s.Runs c ctx pc x 0x30 → w.VeTakes e → old.length = 128 → fn = 0x15 → ∀ v : Cvt, w.cvt (w.c.sreg ctx (fld x 35 32)) = some v →
      v.src = (if bit x 25 then .int32 else .fp32) → (v.dst = .fp32 ∨ v.dst = .int32) → v.srcMx = false → v.dstMx = false →
      let f (i : Nat) : Word × NumEv := (BitVec.ofNat 32 (v.elem 0 (w.uFor v ctx i) (a i).toNat).1, (v.elem 0 (w.uFor v ctx i) (a i).toNat).2)
      exec (.vop c) s = gives (fun w => (w.setV (fld x 51 47) (into f)).countNum (events f))) ∧
    (s.Runs c ctx pc x 0x33 → w.VeTakes e → ∀ (f : Word → Word → Word × NumEv) (one : Word), vredOp (fld x 57 55) = some (f, one) → fld x 54 53 ≠ 3 →
      let src (i : Nat) : Word := if w.vecOn e (bit x 36) (fld x 35 31) i then nth 0 (w.vreg (fld x 47 43)) i else one
      let rows := trees f 4 ((List.range 8).map (fun r => (List.range 16).map (fun l => src (16 * r + l))))
      let cols := trees f 3 ((List.range 16).map (fun l => (List.range 8).map (fun r => src (16 * r + l))))
      let all := tree f 3 rows.1
      let res : List Word × NumEv := if fld x 54 53 = 0 then ((List.range 128).map (fun i => nth 0 rows.1 (i / 16)), rows.2)
        else if fld x 54 53 = 1 then ((List.range 128).map (fun i => nth 0 cols.1 (i % 16)), cols.2)
        else (List.replicate 128 (all.1.headD 0), rows.2.add all.2)
      exec (.vred c) s = gives (fun w =>
        (if bit x 30 then (w.setV (fld x 52 48) res.1).setS ctx (fld x 29 26) (res.1.headD 0) else w.setV (fld x 52 48) res.1).countVec res.2)) ∧
    (s.Runs c ctx pc x 0x34 → w.VeTakes e →
      (bit x 57 = true → exec (.vms c) s =
        gives (fun w => w.setS ctx (fld x 51 48) (nth 0 (w.vreg (fld x 56 52)) (16 * fld x 47 45 + fld x 44 41)))) ∧
      (bit x 57 = false → exec (.vms c) s = gives (fun w => w.setV (fld x 56 52)
        ((w.vreg (fld x 56 52)).mapIdx (fun i o => if w.vecOn e false 0 i then w.c.sreg ctx (fld x 51 48) else o)))))

/-- R136, R137: VAMX moves an amax slot to a scalar register, and clears it under its bit; a slot number of 0 is refused with VE_FN. A slot
that captures values keeps the largest magnitude, or the canonical NaN once it has met a NaN. A register write sets a slot, a negative value as +0 and a NaN as the
canonical NaN, and the captures of the same cycle come after it. -/
def Claims.AmaxSlots : Prop :=
  (∀ (s : State) (c : CoreCode) (ctx pc : Nat) (x : BitVec 64), s.Runs c ctx pc x 0x35 → (s.issuedWk c ctx pc x).VeTakes ((s.coreAt c).entry ctx pc x) →
    let w := s.issuedWk c ctx pc x
    let e := (s.coreAt c).entry ctx pc x
    let n := fld x 57 55
    (n ≠ 0 → exec (.vamx c) s = .next (s.withCore c (w.veTaken e (fun w =>
      let y := w.setS ctx (fld x 54 51) (w.reg (0x820 + 4 * n))
      if bit x 50 then (y.setReg (0x820 + 4 * n) 0).onCore (fun k => { k with caps := tset (0, 0) k.caps n (0, 0) }) else y)))) ∧
    (n = 0 → ctx < 4 → Answers (exec (.vamx c) s) (fun t => s.Faulted t c ctx 3 pc St.VE_FN))) ∧
  (∀ (s : State) (c : CoreCode) (n : Fin 7) (v : Word), s.die.coreOn c.toNat = true →
    let k := s.coreAt c
    let x : Word := if bit v 31 = true then 0 else canonF32 v
    ((tget (0, 0) k.caps (n.val + 1)).1 ≠ s.die.cyc + 1 → exec (.amaxWrite c n v) s = .next (s.withCore c (k.setReg (0x824 + 4 * n.val) x))) ∧
    ((tget (0, 0) k.caps (n.val + 1)).1 = s.die.cyc + 1 → exec (.amaxWrite c n v) s = .next (s.withCore c
      (k.setReg (0x824 + 4 * n.val) (amaxStep x (tget (0, 0) k.caps (n.val + 1)).2))))) ∧
  (∀ (w : Wk) (n : Nat) (xs : List Word), (w.capture n xs).reg (0x820 + 4 * n) = xs.foldl amaxStep (w.reg (0x820 + 4 * n)) ∧
    (w.capture n xs).evs = w.evs ∧ ∀ o, o ≠ 0x820 + 4 * n → (w.capture n xs).reg o = w.reg o) ∧
  (∀ a b : Word, (f32 a).isNan = false → bit a 31 = false → (f32 b).isNan = false →
    (amaxStep a b).toNat = max a.toNat (magF32 b).toNat ∧ amaxStep a 0x7FC00000 = 0x7FC00000 ∧ amaxStep 0x7FC00000 b = 0x7FC00000)

/-- VOP, VRED and VMS under views and masks; the amax slots. -/
def Obligations.VectorOperations : Prop :=
  Claims.VectorOperations ∧ Claims.AmaxSlots

/-- R126, R127, R129: the functions of the vector engine on integers and bits, by the numbers they stand for, and the special values of
the floating ones: max and min give the canonical NaN for a NaN and order the zeros by sign; a comparison with a NaN is false and
unordered is true; the functions and the identities of the reductions. -/
def Claims.VectorFunctions : Prop :=
  (∀ a b c : Word,
    vopFn 0x00 false a b c = some (a, {}) ∧ vopFn 0x00 true a b c = some (a, {}) ∧
    vopFn 0x01 true a b c = some (BitVec.ofInt 32 (a.toInt + b.toInt), {}) ∧ vopFn 0x02 true a b c = some (BitVec.ofInt 32 (a.toInt - b.toInt), {}) ∧
    vopFn 0x03 true a b c = some (BitVec.ofInt 32 (a.toInt * b.toInt), {}) ∧
    vopFn 0x05 true a b c = some (BitVec.ofInt 32 (max a.toInt b.toInt), {}) ∧ vopFn 0x06 true a b c = some (BitVec.ofInt 32 (min a.toInt b.toInt), {}) ∧
    vopFn 0x07 true a b c = some (BitVec.ofInt 32 a.toInt.natAbs, {}) ∧ vopFn 0x08 true a b c = some (BitVec.ofInt 32 (-a.toInt), {}) ∧
    vopFn 0x0A true a b c = some (if a.toInt < b.toInt then 0xFFFFFFFF else 0, {}) ∧
    vopFn 0x0B true a b c = some (if a.toInt ≤ b.toInt then 0xFFFFFFFF else 0, {}) ∧
    vopFn 0x0D false a b c = some (if c.getLsbD 0 = true then a else b, {}) ∧
    vopFn 0x11 true a b c = some (BitVec.ofNat 32 (a.toNat * 2 ^ (b.toNat % 32)), {}) ∧
    vopFn 0x12 true a b c = some (BitVec.ofInt 32 (a.toInt / 2 ^ (b.toNat % 32)), {}) ∧
    vopFn 0x13 true a b c = some (BitVec.ofNat 32 (a.toNat / 2 ^ (b.toNat % 32)), {})) ∧
  (∀ a b c : Word, (f32 a).isNan = true ∨ (f32 b).isNan = true →
    vopFn 0x05 false a b c = some (0x7FC00000, {}) ∧ vopFn 0x06 false a b c = some (0x7FC00000, {}) ∧
    vopFn 0x09 false a b c = some (0, {}) ∧ vopFn 0x0A false a b c = some (0, {}) ∧ vopFn 0x0B false a b c = some (0, {}) ∧
    vopFn 0x0C false a b c = some (0xFFFFFFFF, {})) ∧
  (fMax 0 0x80000000 = 0 ∧ fMax 0x80000000 0 = 0 ∧ fMin 0 0x80000000 = 0x80000000 ∧ fMin 0x80000000 0 = 0x80000000) ∧
  (∀ a : Word, (f32 a).isNan = true → ∀ f ∈ [fRcp, fRsqrt, fExp, fLog, fTanh, fErf], f a = 0x7FC00000) ∧
  (fRcp 0x7F800000 = 0 ∧ fRcp 0x80000000 = 0xFF800000 ∧ fRsqrt 0x80000000 = 0xFF800000 ∧ fRsqrt 0x7F800000 = 0 ∧
    fExp 0 = 0x3F800000 ∧ fExp 0xFF800000 = 0 ∧ fExp 0x7F800000 = 0x7F800000 ∧ fLog 0x3F800000 = 0 ∧ fLog 0 = 0xFF800000 ∧
    fTanh 0xFF800000 = 0xBF800000 ∧ fErf 0x7F800000 = 0x3F800000) ∧
  (∀ a : Word, (f32 a).isNan = false → (magF32 (fTanh a)).toNat ≤ 0x3F800000 ∧ (magF32 (fErf a)).toNat ≤ 0x3F800000 ∧
    fTanh (a ^^^ 0x80000000) = fTanh a ^^^ 0x80000000 ∧ fErf (a ^^^ 0x80000000) = fErf a ^^^ 0x80000000)

/-- R131 to R135: VLD and VST, taken by a free pipe: the elements at their offsets, in rows under the strides or as one plane group,
loaded as they are or converted into the enabled elements; the enabled elements stored, as they are or converted. Nothing is loaded or
stored elsewhere. Each line is an access of the vector port for its bank to serve (R140, R151). -/
def Claims.VectorLoadsAndStores : Prop :=
  ∀ (s : State) (c : CoreCode) (ctx pc : Nat) (x : BitVec 64) (m : VecMem),
    let w := s.issuedWk c ctx pc x
    let e := (s.coreAt c).entry ctx pc x
    let a := w.addr ctx (fld x 43 29) 4 (bit x 48) (fld x 47 44)
    let planar := (m.typ.map ElemType.planar).getD false
    let z := (m.typ.map ElemType.bytes).getD 4
    let on := w.vecOn e (bit x 12) (fld x 11 7)
    let at_ (i : Nat) : Int := a + (i / 16 : Nat) * m.rs + (i % 16 : Nat) * m.ls
    let v := w.vreg (fld x 57 53)
    (s.Runs c ctx pc x 0x31 → w.VeTakes e → w.vecMem e false a = .inl m → v.length = 128 → ∀ bytes scales : List Byte,
      w.Reads ctx (fld x 52 49) (if planar then span a 64 else (List.range 128).flatMap (fun i => span (at_ i) z)) bytes →
      ((∃ y, m.cvt = some y ∧ y.srcMx = true) → w.Reads ctx (fld x 3 0) (span (w.c.sreg ctx (fld x 22 19)).toInt 4) scales) →
      ((∀ y, m.cvt = some y → y.srcMx = false) → scales = []) →
      let f (i : Nat) : Word × NumEv := match m.cvt with
        | none => (BitVec.ofNat 32 (elemAt bytes 4 i), {})
        | some y =>
          let r := y.elem (nth 0 scales (i / 32)).toNat (w.uFor y ctx i) (if planar then planeElem bytes y.src.bits i else elemAt bytes z i)
          (BitVec.ofNat 32 r.1, r.2)
      exec (.vld c) s = .next (s.withCore c (w.veTaken e (fun w => (w.setV (fld x 57 53) (v.mapIdx (fun i o => if on i then (f i).1 else o))).countNum
        (((List.range 128).filter on).foldl (fun z i => z.add (f i).2) {}))))) ∧
    (s.Runs c ctx pc x 0x32 → w.VeTakes e → w.vecMem e true a = .inl m → (∀ y, m.cvt = some y → y.dstMx = false) → ∀ y : Core,
      let idx := (List.range 128).filter on
      let f (i : Nat) : Nat × NumEv := match m.cvt with
        | none => ((nth 0 v i).toNat, {})
        | some u => u.elem 0 (w.uFor u ctx i) (nth 0 v i).toNat
      w.Writes ctx (fld x 52 49) portVector (if planar then planeWrites a ((m.typ.map ElemType.bits).getD 4) (idx.map (fun i => (i, (f i).1)))
        else idx.flatMap (fun i => elemWrites (at_ i) z (f i).1)) y →
      let cap := fld x 6 4
      exec (.vst c) s = .next (s.withCore c (w.veTaken e (fun w =>
        (if cap = 0 then { w with c := y } else ({ w with c := y }).capture cap (idx.map (nth 0 v))).countNum
        (idx.foldl (fun z i => z.add (f i).2) {}))))) ∧
    (s.Runs c ctx pc x 0x32 → w.VeTakes e → w.vecMem e true a = .inl m → ∀ (u : Cvt) (y z : Core), m.cvt = some u → u.dstMx = true →
      let blk (b : Nat) : List (Nat × Nat) × Option Nat × NumEv := vstBlock w e u v on b
      let els := (List.range 4).flatMap (fun b => (blk b).1)
      let so := (w.c.sreg ctx (fld x 22 19)).toInt
      w.Writes ctx (fld x 52 49) portVector (if planar then planeWrites a u.dst.bits els
        else els.flatMap (fun i => elemWrites (at_ i.1) u.dst.bytes i.2)) y →
      ({ w with c := y }).Writes ctx (fld x 3 0) portVector ((List.range 4).flatMap (fun b => ((blk b).2.1.map (fun n =>
        (so + (b : Nat), BitVec.ofNat 8 n, (0xFF : Byte)))).toList)) z →
      let cap := fld x 6 4
      exec (.vst c) s = .next (s.withCore c (w.veTaken e (fun w =>
        (if cap = 0 then { w with c := z } else ({ w with c := z }).capture cap (((List.range 128).filter on).map (nth 0 v))).countNum
        ((List.range 4).foldl (fun z b => z.add (blk b).2.2) {}))))) ∧
    (∀ m', w.vecMem e true a = .inl m' ∨ w.vecMem e false a = .inl m' → bit x 28 = false → m'.cvt = none ∧ m'.typ = none ∧
      (bit x 23 = false → m'.rs = 64 ∧ m'.ls = 4) ∧ a % 4 = 0)

/-- The functions of the vector engine; vector loads and stores. -/
def Obligations.VectorFunctionsAndMemory : Prop :=
  Claims.VectorFunctions ∧ Claims.VectorLoadsAndStores

/-- R160, R161: a write of CORE_MEM_PWR sets the bits of the memory's banks: a bank that is on begins to switch off, one that is off takes its
place in the wake order, one that waits there leaves it, and a transition that has begun goes on; of the banks that wait one at most
begins to wake. A bank that has woken for 160 cycles is on with every row zero; where its bit is 0 it serves what waits for it and is off
from a later cycle on. One that has switched off, every access it has accepted served, has lost its contents. Nothing happens before. -/
def Claims.BankPower : Prop :=
  ∀ (s : State) (c : CoreCode), s.die.coreOn c.toNat = true →
    let k := s.coreAt c
    let reg (m : Nat) : Nat := 0x908 + 4 * m
    let near (b b' : Bank) : Prop := b' = b ∨ (∃ n, b = .queued n ∧ b' = .waking s.die.cyc)
    let gone (k' : Core) (m b : Nat) : Prop := ∀ j, tget 0 k'.mem j = (if 0x20000 * m + 8192 * b ≤ j ∧ j < 0x20000 * m + 8192 * b + 8192 then 0 else tget 0 k.mem j) ∧
      tget .clean k'.werr j = (if (0x20000 * m + 8192 * b) / 8 ≤ j ∧ j < (0x20000 * m + 8192 * b) / 8 + 1024 then .clean else tget .clean k.werr j)
    (∀ (m : Fin 3) (v : Word), CoreGives (exec (.bankPowerWrite c m v) s) s c (fun k' =>
      k'.reg (reg m.val) = BitVec.ofNat 32 (v.toNat % 2 ^ numBanks s.die.smallPantry m.val) ∧
      (∀ b, b < numBanks s.die.smallPantry m.val → near ((k.bank m.val b).power (bit v b) s.die.cyc) (k'.bank m.val b)) ∧
      (k.wakingBank = true → ∀ b, b < numBanks s.die.smallPantry m.val → k'.bank m.val b = (k.bank m.val b).power (bit v b) s.die.cyc) ∧
      k'.mem = k.mem ∧ k'.werr = k.werr)) ∧
    (∀ (m : Fin 3) (b : Fin 16) (n : Nat), k.bank m.val b.val = .waking n →
      (s.die.cyc < n + 160 → exec (.bankWakeDone c m b) s = .next (s.withCore c k)) ∧
      (n + 160 ≤ s.die.cyc → k.Idle → CoreGives (exec (.bankWakeDone c m b) s) s c (fun k' =>
        k'.bank m.val b.val = (if bit (k.reg (reg m.val)) b.val = true then .on else .last s.die.cyc) ∧ gone k' m.val b.val ∧
        (∀ m' b', m' < 3 → b' < 16 → (m' ≠ m.val ∨ b' ≠ b.val) → near (k.bank m' b') (k'.bank m' b')) ∧ k'.regs = k.regs))) ∧
    (∀ (m : Fin 3) (b : Fin 16), (∀ n, k.bank m.val b.val ≠ .waking n) → exec (.bankWakeDone c m b) s = .next (s.withCore c k)) ∧
    (∀ (m : Fin 3) (b : Fin 16), (s.wk c).bankInUse m.val b.val = true → exec (.bankOffDone c m b) s = .next (s.withCore c k)) ∧
    (∀ (m : Fin 3) (b : Fin 16) (again : Bool), (s.wk c).bankInUse m.val b.val = false → k.bank m.val b.val = .stopping again → CoreGives (exec (.bankOffDone c m b) s) s c (fun k' =>
      near (if again = true then .queued s.die.cyc else .off) (k'.bank m.val b.val) ∧ gone k' m.val b.val ∧
      (∀ m' b', m' < 3 → b' < 16 → (m' ≠ m.val ∨ b' ≠ b.val) → near (k.bank m' b') (k'.bank m' b')) ∧ k'.regs = k.regs)) ∧
    (∀ (m : Fin 3) (b : Fin 16) (n : Nat), (s.wk c).bankInUse m.val b.val = false → k.bank m.val b.val = .last n →
      (s.die.cyc ≤ n → exec (.bankOffDone c m b) s = .next (s.withCore c k)) ∧
      (n < s.die.cyc → CoreGives (exec (.bankOffDone c m b) s) s c (fun k' => near .off (k'.bank m.val b.val) ∧ gone k' m.val b.val ∧
        (∀ m' b', m' < 3 → b' < 16 → (m' ≠ m.val ∨ b' ≠ b.val) → near (k.bank m' b') (k'.bank m' b')) ∧ k'.regs = k.regs))) ∧
    (∀ (m : Fin 3) (b : Fin 16), (∀ again, k.bank m.val b.val ≠ .stopping again) → (∀ n, k.bank m.val b.val ≠ .last n) → exec (.bankOffDone c m b) s = .next (s.withCore c k)) ∧
    (∀ n, Bank.on.power true n = .on ∧ Bank.on.power false n = .stopping false ∧ Bank.off.power true n = .queued n ∧ Bank.off.power false n = .off ∧
      (∀ j, (Bank.waking j).power false n = .waking j ∧ (Bank.queued j).power false n = .off) ∧
      (∀ j, (Bank.last j).power true n = .on ∧ (Bank.last j).power false n = .last j) ∧ ∀ a x, (Bank.stopping a).power x n = .stopping x)

/-- R163, R164, R166: the write-back of a corrected codeword stores the corrected word with its check symbols, and does nothing to a word that
is clean or uncorrectable by then. Patrol reads one row of a bank that is on when its interval has passed, and goes on at the next: a row
without error changes nothing else; the first error met is counted, logged, and marked for write-back. -/
def Claims.PatrolAndWriteBack : Prop :=
  ∀ (s : State) (c : CoreCode), s.die.coreOn c.toNat = true →
    let k := s.coreAt c
    let w := s.wk c
    (k.ceWb = [] → exec (.ceWriteBack c) s = .next (s.withCore c k)) ∧
    (∀ n ns, k.ceWb = n :: ns →
      (∀ i e, (w.werrAt (n / 0x20000) (n % 0x20000)).read = .sym i e → exec (.ceWriteBack c) s = .next (s.withCore c { (((w.putWord (n / 0x20000)
        (n % 0x20000) (eccFix (w.rawWord (n / 0x20000) (n % 0x20000)) i e))).setWerr (n / 0x20000) (n % 0x20000) .clean).c with ceWb := ns })) ∧
      ((∀ i e, (w.werrAt (n / 0x20000) (n % 0x20000)).read ≠ .sym i e) → exec (.ceWriteBack c) s = .next (s.withCore c { k with ceWb := ns }))) ∧
    (∀ m : Fin 3,
      let n := fld (k.reg 0x900) 3 0
      (n = 0 ∨ s.die.cyc < tget 0 k.patrolAt m.val + 2 ^ (7 + n) → exec (.patrolRead c m) s = .next (s.withCore c k)) ∧
      (n ≠ 0 → tget 0 k.patrolAt m.val + 2 ^ (7 + n) ≤ s.die.cyc →
        (∀ b, b < 16 → (k.bank m.val b).serves = false) → exec (.patrolRead c m) s =
          .next (s.withCore c { k with patrolAt := tset 0 k.patrolAt m.val s.die.cyc })) ∧
      (n ≠ 0 → tget 0 k.patrolAt m.val + 2 ^ (7 + n) ≤ s.die.cyc → ∀ p,
        k.patrolNext s.die.smallPantry m.val (tget 0 k.patrolRow m.val) = some p →
        let offs := (List.range 64).map (fun i => lineOf k.annex s.die.smallPantry m.val (p / 128) (p % 128) + i)
        (w.badFor portPatrol m.val offs = [] → exec (.patrolRead c m) s = .next (s.withCore c { k with
          patrolAt := tset 0 k.patrolAt m.val s.die.cyc
          patrolRow := tset 0 k.patrolRow m.val ((p + 1) % (128 * numBanks s.die.smallPantry m.val)) })) ∧
        (∀ j i e, w.badFor portPatrol m.val offs = [j] → (w.errFor portPatrol m.val (8 * j)).read = .sym i e → bit (k.reg 0x900) 4 = true →
          Answers (exec (.patrolRead c m) s) (fun t => (t.coreAt c).reg 0x92C = satAdd32 (k.reg 0x92C) 1 ∧
            (t.coreAt c).ceWb = k.ceWb ++ [0x20000 * m.val + 8 * (8 * j / 8)] ∧ bit ((t.coreAt c).reg 0x930) 31 = true ∧
            fld ((t.coreAt c).reg 0x930) 30 29 = m.val ∧ fld ((t.coreAt c).reg 0x930) 28 27 = 3 ∧ (t.coreAt c).mem = k.mem ∧
            t.die.reg 0x240020 = satAdd32 (s.die.reg 0x240020) 1 ∧ t.die.flog = s.die.flog))))

/-- The power of memory banks, the write-back of corrected words and patrol. -/
def Obligations.BanksAndPatrol : Prop :=
  Claims.BankPower ∧ Claims.PatrolAndWriteBack

/-- R157, R158, R501, R502: a remote access of a core of this die: a whole message at the front of the arrivals is served, and answered.
An address that is not a line's is refused MISALIGNED, and one that no window allows WIN_DENIED, counted and recorded; a read returns
the lines in flits of their own; a write of a whole line stores it and is acknowledged. An accepted message whose bank is waking is held, and
served, before any other, once its bank serves, whatever the windows are by then. With no whole message nothing happens. -/
def Obligations.RemoteAccesses : Prop :=
  ∀ (s : State) (c : CoreCode), s.die.coreOn c.toNat = true →
    let k := s.coreAt c
    let w := s.wk c
    (k.held = [] → takeMessage k.isRequest k.rx = none → exec (.remoteAccess c) s = .next (s.withCore c k)) ∧
    (∀ fs gs, k.held = fs :: gs → w.remoteWaits fs = true → exec (.remoteAccess c) s = .next (s.withCore c k)) ∧
    (∀ a rest, k.held = [] → takeMessage k.isRequest k.rx = some (a :: rest) → w.remoteCheck a = St.OK → w.remoteWaits (a :: rest) = true →
      exec (.remoteAccess c) s = .next (s.withCore c { k with rx := removeFlits k.rx (a :: rest), held := [a :: rest] })) ∧
    (∀ a rest m off m2 off2, k.held = [] → takeMessage k.isRequest k.rx = some (a :: rest) →
      let sop := fld (a.word 0) 63 56
      let nl := fld (a.word 0) 54 52 + 1
      let o := fld (a.word 1) 19 0
      BitVec.ofNat 16 (fld (a.word 0) 47 32) = s.die.addr → (sop = 0x12 ∨ sop = 0x13 ∨ sop = 0x14) →
      memOfWindow s.die.smallPantry o = some (m, off) → memOfWindow s.die.smallPantry (o + 64 * nl - 1) = some (m2, off2) →
      let gone : Core := { k with rx := removeFlits k.rx (a :: rest) }
      let answer (y : Core) (st : Status) : Core := { y with hallIn := y.hallIn + 1, hall := y.hall ++ [Flit.mk'
        ⟨0, 6, true, false, a.h.src, a.h.dep, c.toNat, a.h.sep, a.h.mseq, 0⟩ [svcWord0 (if a.h.tail then 0x12 else 0x13) 0 s.die.addr st, a.word 1]] }
      let open_ : Bool := w.windowAllows (sop != 0x12) s.die.addr a.h.src m off (64 * nl)
      (o % 64 ≠ 0 → exec (.remoteAccess c) s = .next (s.withCore c (answer gone St.MISALIGNED))) ∧
      (o % 64 = 0 → (m ≠ m2 ∨ open_ = false) → exec (.remoteAccess c) s = .next (s.withCore c (answer
        ((gone.bump s.die.cyc 0x940 1).mark s.die.cyc 0x944 (BitVec.ofNat 32 St.WIN_DENIED.toNat)) St.WIN_DENIED))) ∧
      (o % 64 = 0 → m = m2 → open_ = true → sop = 0x12 → w.Clean m (offsets off (64 * nl)) → exec (.remoteAccess c) s = .next (s.withCore c
        { ({ w with c := gone }).asked portDma m (offsets off (64 * nl)) with resp := k.resp ++ (List.range nl).map (fun j =>
          ⟨(⟨1, 5, j + 1 == nl, false, a.h.src, a.h.dep, c.toNat, a.h.sep, a.h.mseq, j⟩ : Hdr).pack,
            bytesPay (((w.bytesAt m (offsets off (64 * nl))).drop (64 * j)).take 64), [], [], none, false⟩) })) ∧
      (∀ d, o % 64 = 0 → m = m2 → open_ = true → sop = 0x13 → nl = 1 → rest = [d] → a.h.dep ≠ 1 → a.h.dep ≠ 2 → (a.word 2).toNat = 2 ^ 64 - 1 →
        d.err = [] → d.pay.length = 8 → k.werr = [] → k.ceWb = [] → (k.annex && s.die.smallPantry) = false →
        (∀ i, i < 64 → (k.bank m (w.bankAt m (off + i))).serves = true) → CoreGives (exec (.remoteAccess c) s) s c (fun k' =>
          (∀ i, i < 64 → ({ w with c := k' }).byteAt m (off + i) = nth 0 (payBytes d.pay) i) ∧
          (∀ m' o', m' < 3 → o' < memSize s.die.smallPantry m' → (m' ≠ m ∨ o' < off ∨ off + 64 ≤ o') →
            ({ w with c := k' }).byteAt m' o' = w.byteAt m' o') ∧
          k' = { answer gone St.OK with mem := k'.mem, old := k'.old, ports := (w.askPort portDma m true s.die.cyc 0 [off]).c.ports })))

/-- R153, R159, R168, R169, R193, R254, R480: a write of a handle register of a context that is not RUNNING or DRAINING sets its fields and
takes VALID from every descriptor that names the handle; a write of a window register sets its fields, and a window that then exceeds its
memory is closed with MEM_RANGE; a write of CORE_ANNEX_CTL takes effect while every context is EMPTY, on an eligible core. Elsewhere
the write is refused and recorded. -/
def Obligations.CoreConfiguration : Prop :=
  ∀ (s : State) (c : CoreCode), s.die.coreOn c.toNat = true →
    let k := s.coreAt c
    let err (off : Nat) (st : Status) : Core := k.mark s.die.cyc off (BitVec.ofNat 32 st.toNat)
    (∀ (ctx : Fin 4) (h : Fin 16) (hi : Bool) (v : Word),
      let off := 0x1000 + 0x80 * ctx.val + 8 * h.val + (if hi then 4 else 0)
      (k.ctxBusy ctx.val = true → exec (.handleWrite c ctx h hi v) s = .next (s.withCore c (err 0x944 St.CTX_STATE))) ∧
      (k.ctxBusy ctx.val = false → CoreGives (exec (.handleWrite c ctx h hi v) s) s c (fun k' =>
        k'.reg off = v &&& (if hi then 0x3FFC0 else 0xF001FFC0) ∧
        (∀ d, d < 16 → (namesHandle (k.desc ctx.val d) h.val = true → bit (k'.reg (descReg ctx.val d 0)) 31 = false) ∧
          (namesHandle (k.desc ctx.val d) h.val = false → k'.reg (descReg ctx.val d 0) = k.reg (descReg ctx.val d 0))) ∧
        (∀ o, o ≠ off → (∀ d, d < 16 → o ≠ descReg ctx.val d 0) → k'.reg o = k.reg o) ∧ k' = { k with regs := k'.regs }))) ∧
    (∀ (j : Fin 8) (r : Fin 3) (v : Word),
      let off := 0x1200 + 16 * j.val + 4 * r.val
      let ctl := 0x1200 + 16 * j.val
      let y := k.setReg off (v &&& (if r.val = 0 then 0xFF000FFF else if r.val = 1 then 0x1FFC0 else 0x3FFC0))
      let bad := fld (y.reg ctl) 28 27 = 3 ∨
        memSize s.die.smallPantry (fld (y.reg ctl) 28 27) < 64 * fld (y.reg (ctl + 4)) 16 6 + 64 * fld (y.reg (ctl + 8)) 17 6
      (bit (y.reg ctl) 31 = true → bad → exec (.windowWrite c j r v) s = .next (s.withCore c
        ((y.setReg ctl (y.reg ctl &&& 0x7FFFFFFF)).mark s.die.cyc 0x944 (BitVec.ofNat 32 St.MEM_RANGE.toNat)))) ∧
      ((bit (y.reg ctl) 31 = false ∨ ¬ bad) → exec (.windowWrite c j r v) s = .next (s.withCore c y))) ∧
    (∀ v : Word,
      ((∃ n, n < 4 ∧ (k.ctx n).state ≠ .empty) → exec (.annexCtlWrite c v) s = .next (s.withCore c (err 0x004 St.CTX_STATE))) ∧
      ((∀ n, n < 4 → (k.ctx n).state = .empty) → bit v 31 = true → (s.die.env c).elig = false →
        exec (.annexCtlWrite c v) s = .next (s.withCore c (err 0x004 St.ANNEX_GEOM))) ∧
      ((∀ n, n < 4 → (k.ctx n).state = .empty) → (bit v 31 = false ∨ (s.die.env c).elig = true) →
        CoreGives (exec (.annexCtlWrite c v) s) s c (fun k' => k' = { k.setReg 0xA00 (v &&& 0x80000000) with sems := k'.sems } ∧
          k'.annex = bit v 31 ∧ ∀ p, p < 48 → k'.sem p = (if bit v 31 = k.annex then k.sem p
            else { k.sem p with value := (k.sem p).value % 2 ^ 14 }))))

/-! ### Streams -/

/-- R213, R216 to R219: SSEND on a source endpoint of its context expands at the head of the stream queue, and is done when its flits have left
and the acknowledgements that LEAVES counts have come; SRECV on a sink endpoint takes its visible flits, in order, dropping them under DISC or writing each line to the
buffer, and waits for those that are not there; SSTAT reads the count of visible flits of a sink and 0 of a source. Any of them on an
endpoint of another mode or owner, an SSEND on one of the reserved KIND, and either with a line address that is not aligned, is refused and
recorded with the endpoint. -/
def Claims.StreamInstructions : Prop :=
  ∀ (s : State) (c : CoreCode) (ctx pc : Nat) (x : BitVec 64), ctx < 4 →
    let w := s.issuedWk c ctx pc x
    let k := w.c
    let e := (s.coreAt c).entry ctx pc x
    let ep := fld x 57 54
    let own : Prop := k.epCtx ep = ctx
    let sends : Prop := k.epMode ep = 1 ∧ fld (k.epReg ep 0) 29 28 ≠ 3
    let nf := fld x 33 25 + 1
    let a := w.addr ctx (fld x 44 34) 64 (bit x 49) (fld x 48 45)
    let refused (o : Host.Outcome State Fault Refusal) (st : Status) : Prop := Answers o (fun t => s.Faulted t c ctx 5 pc st ∧
      (t.coreAt c).reg 0x4240 = BitVec.ofNat 32 (put 1 31 + put ep 16 + st.toNat))
    (s.Runs c ctx pc x 0x1C →
      (sends → own → (∃ b, w.handle ctx (fld x 53 50) false = .inl b) →
        (a % 64 = 0 → exec (.ssend c) s = .next (s.withCore c { k with queues := [(5, [{ e with started := true, addr := a }])] })) ∧
        (a % 64 ≠ 0 → refused (exec (.ssend c) s) St.STRM_ALIGN)) ∧
      (¬ sends → refused (exec (.ssend c) s) St.STRM_MODE) ∧
      (sends → ¬ own → refused (exec (.ssend c) s) St.STRM_OWNER) ∧
      (∀ (y : Wk) (n : Nat), y.runStream { e with started := true, addr := a, done := n } =
        (if fld x 33 25 < n ∧ fld (y.c.epReg ep 0) 23 12 ≤ (y.c.ep ep).acks then .done y else .wait y))) ∧
    (s.Runs c ctx pc x 0x1D →
      (k.epMode ep = 2 → own → bit x 24 = true → nf ≤ (k.ep ep).visible → w.spillWait ((k.ep ep).q.take nf) = false →
        exec (.srecv c) s = .next (s.withCore c { k with
          queues := [], eps := tmod .reset k.eps ep (fun p : Endpoint => p.drop s.die.cyc nf) })) ∧
      (k.epMode ep = 2 → own → bit x 24 = true → (k.ep ep).visible = 0 → exec (.srecv c) s = .next (s.withCore c k)) ∧
      (k.epMode ep = 2 → own → bit x 24 = false → nf = 1 → a % 64 = 0 → ∀ f fs k', (k.ep ep).q = f :: fs → f.held = false →
        w.spillWait [f] = false → (∀ i, i < 8 → w.epBadWord f i = false) → (w.epPayload ctx f).1.evs = [] →
        (w.epPayload ctx f).1.Writes ctx (fld x 53 50) portDma
          (((payBytes (w.epPayload ctx f).2).zip (span a 64)).map (fun y => (y.2, y.1, 0xFF))) k' →
        exec (.srecv c) s = .next (s.withCore c { k' with
          queues := [], eps := tmod .reset k.eps ep (fun p : Endpoint => p.drop s.die.cyc 1) }) ∧ (k.ep ep).q.drop 1 = fs) ∧
      (k.epMode ep = 2 → own → bit x 24 = false → (∃ b, w.handle ctx (fld x 53 50) true = .inl b) → a % 64 ≠ 0 →
        refused (exec (.srecv c) s) St.STRM_ALIGN) ∧
      (k.epMode ep ≠ 2 → refused (exec (.srecv c) s) St.STRM_MODE) ∧
      (k.epMode ep = 2 → ¬ own → refused (exec (.srecv c) s) St.STRM_OWNER)) ∧
    (s.Runs c ctx pc x 0x1E →
      ((k.epMode ep = 1 ∨ k.epMode ep = 2) → own → exec (.sstat c) s = .next (s.withCore c
        { k.setS s.die.cyc (s.die.cyc + 1) ctx (fld x 53 50) (BitVec.ofNat 32 (if k.epMode ep = 2 then (k.ep ep).visible else 0)) with queues := [] })) ∧
      (k.epMode ep ≠ 1 → k.epMode ep ≠ 2 → refused (exec (.sstat c) s) St.STRM_MODE) ∧
      ((k.epMode ep = 1 ∨ k.epMode ep = 2) → ¬ own → refused (exec (.sstat c) s) St.STRM_OWNER))

/-- R211, R215, R217, R221, R233: at most one flit leaves a core in a cycle: a Hallway message, when the router's bucket has a token, before a
read response, that before the source endpoints in turn, and Service responses in what is left. The flit goes to the local input of the
core's router; an endpoint's flit, of an SSEND or of a message that a steering unit forwards, carries its number and index, spends a
token, and its TAIL advances the number. -/
def Claims.StreamAdmission : Prop :=
  ∀ (s : State) (c : CoreCode), s.die.coreOn c.toNat = true → s.die.meshOn = true →
    let k := s.coreAt c
    let w := s.wk c
    let now := s.die.cyc
    let ro := s.die.router c.toNat
    let hall := ro.shaper.spend (ro.reg 0x5000) now 1
    let leaves (k' : Core) (f : Flit) : Prop :=
      exec (.flitAdmit c) s = .next (s.withDie ((s.die.setCore c.toNat { k' with injAt := some now }).enter c.toNat 0 f))
    let steps (ep : Nat) (tail : Bool) : Core :=
      (if tail then k.setReg (0x4018 + 32 * ep) (BitVec.ofNat 32 ((fld (k.epReg ep 0x18) 15 0 + 1) % 65536)) else k).bump now 0x4248 1
    (k.injAt = some now → exec (.flitAdmit c) s = .next (s.withCore c k)) ∧
    (k.injAt ≠ some now →
      (∀ f fs sh, k.hall = f :: fs → hall = some sh → exec (.flitAdmit c) s = .next (s.withDie
        (((s.die.setCore c.toNat { k with hall := fs, hallOut := k.hallOut + 1, injAt := some now }).modRouter c.toNat
          (fun r : Router => { r with shaper := sh })).enter c.toNat 0 f))) ∧
      ((k.hall = [] ∨ hall = none) →
        (∀ f fs, k.resp = f :: fs → leaves { k with resp := fs } f) ∧
        (k.resp = [] →
          (∀ ep e es sh bytes, w.nextSource = some ep → w.epWaiting ep = some .ssend → k.queue 5 = e :: es →
            (k.ep ep).shaper.spend (k.epReg ep 8) now 1 = some sh →
            let os := span (e.addr + (64 * e.done : Nat)) 64
            w.Reads e.ctx (fld e.word 53 50) os bytes →
            let tail : Bool := decide (fld e.word 33 25 ≤ e.done)
            let num := fld (k.epReg ep 0x18) 15 0
            let h : Hdr := ⟨1, fld (k.epReg ep 0) 29 28, tail, bit (k.epReg ep 0) 24, fld (k.epReg ep 4) 15 4, fld (k.epReg ep 4) 3 0, c.toNat, ep, num, e.done⟩
            leaves { steps ep tail with
              queues := tset [] k.queues 5 ({ e with done := e.done + 1 } :: es)
              ports := k.ports ++ w.asks e.ctx (fld e.word 53 50) portDma 0 false os
              eps := tmod .reset k.eps ep (fun p : Endpoint => { p with
                shaper := sh, fidx := if tail then 0 else p.fidx + 1, cur := if tail then none else some .ssend
                sent := if e.done = 0 then num else p.sent, acks := if e.done = 0 then 0 else p.acks })
              epTurn := (ep + 1) % 16 } ⟨h.pack, bytesPay bytes, [], [], none, false⟩) ∧
          (∀ ep u f fs sh, w.nextSource = some ep → w.epWaiting ep = some (.unit u) → (k.steer u).out = f :: fs →
            (k.ep ep).shaper.spend (k.epReg ep 8) now 1 = some sh →
            leaves { steps ep f.tail with
              steers := tmod .reset k.steers u (fun x : Steer => { x with out := fs })
              eps := tmod .reset k.eps ep (fun p : Endpoint => { p with
                shaper := sh, fidx := if f.tail then 0 else p.fidx + 1, cur := if f.tail then none else some (.unit u) })
              epTurn := (ep + 1) % 16 } ⟨(k.srcHdr c ep (k.ep ep).fidx f.tail).pack, f.pay, f.err, [], none, false⟩) ∧
          (w.nextSource = none → (∀ f fs, k.svc = f :: fs → leaves { k with svc := fs } f) ∧
            (k.svc = [] → exec (.flitAdmit c) s = .next (s.withCore c k))))))

/-- R220: a bucket never holds more than BURST, and in any window of t cycles at most BURST + ⌊RATE × t ÷ 1024⌋ flits are admitted from it. A
write of a shaper's register stores RATE and BURST and fills its bucket: an endpoint's while its context does not run, a channel's, the
Hallway's in its router, and a module's while no context of the die runs; otherwise CTX_STATE is recorded. -/
def Claims.TokenBuckets : Prop :=
  (∀ (b : Shaper) (r : Word) (cyc n : Nat), b.tokens r cyc ≤ fld r 31 24 * 1024 ∧
    (∀ b', b.spend r cyc n = some b' → b'.tok + 1024 * n = b.tokens r cyc ∧ b'.at_ = cyc)) ∧
  (∀ (b b' : Shaper) (r : Word) (cycs : List Nat) (lo t : Nat), b.at_ ≤ lo → cycs.Pairwise (· ≤ ·) → (∀ x ∈ cycs, lo ≤ x ∧ x < lo + t) →
    b.spendAll r cycs = some b' → cycs.length ≤ fld r 31 24 + resRate r * t / 1024) ∧
  (∀ (s : State) (v : Word), s.die.meshOn = true →
    (∀ (c : CoreCode) (e : Fin 16), s.die.coreOn c.toNat = true →
      let k := s.coreAt c
      (k.ctxBusy (k.epCtx e.val) = false → exec (.shaperWrite (.endpoint c e) v) s = .next (s.withCore c
        { k.setReg (0x4008 + 32 * e.val) (v &&& 0xFF0007FF) with
          eps := tmod .reset k.eps e.val (fun p : Endpoint => { p with shaper := ⟨fld v 31 24 * 1024, s.die.cyc⟩ }) })) ∧
      (k.ctxBusy (k.epCtx e.val) = true → Answers (exec (.shaperWrite (.endpoint c e) v) s) (fun t =>
        (t.coreAt c).epReg e.val 8 = k.epReg e.val 8 ∧ (t.coreAt c).eps = k.eps ∧
        (t.coreAt c).reg 0x4240 = BitVec.ofNat 32 (put 1 31 + put e.val 16 + St.CTX_STATE.toNat)))) ∧
    (∀ (c : CoreCode) (ch : Fin 4), s.die.coreOn c.toNat = true → exec (.shaperWrite (.channel c ch) v) s = .next (s.withCore c
      { (s.coreAt c).setReg (0x6010 + 8 * ch.val) (v &&& 0xFF0007FF) with
        chans := tmod .reset (s.coreAt c).chans ch.val (fun p : Channel => { p with shaper := ⟨fld v 31 24 * 1024, s.die.cyc⟩ }) })) ∧
    (∀ c : CoreCode, isCore c.toNat = true → exec (.shaperWrite (.hallway c) v) s = .next (s.withDie (s.die.modRouter c.toNat (fun r : Router =>
      { r.setReg 0x5000 (mergeMask (r.reg 0x5000) v 0xFF0007FF) with shaper := ⟨fld v 31 24 * 1024, s.die.cyc⟩ })))) ∧
    (∀ m : Fin 48, s.die.modState m.val ≠ 0 → s.die.anyBusy = false → Answers (exec (.shaperWrite (.transit m) v) s) (fun t =>
      t.die.mod m.val = { s.die.mod m.val with shaper := ⟨fld v 31 24 * 1024, s.die.cyc⟩ } ∧
        fld (t.die.reg (modOff m.val 2)) 31 24 = fld v 31 24 ∧ fld (t.die.reg (modOff m.val 2)) 10 0 = fld v 10 0)) ∧
    (∀ m : Fin 48, s.die.anyBusy = true → exec (.shaperWrite (.transit m) v) s = .next (s.withDie (s.die.porchErr 0 2 m.val St.CTX_STATE))) ∧
    (∀ m : Fin 48, s.die.anyBusy = false → s.die.modState m.val = 0 → exec (.shaperWrite (.transit m) v) s = .next s))

/-- SSEND, SRECV and SSTAT; what leaves a core in a cycle; the token buckets. -/
def Obligations.StreamsFromACore : Prop :=
  Claims.StreamInstructions ∧ Claims.StreamAdmission ∧ Claims.TokenBuckets

/-- R214, R215, R219, R230, R231: a delivered flit joins its sink endpoint's ring, in order, and its TAIL is acknowledged to the source with
the span; one that is out of order is kept and recorded STRM_SEQ; one for an endpoint that is no sink, or that finds ring and spill ring
full, is discarded and recorded, and the endpoint is then starved. An acknowledgement counts at its source for the message it names. The join watchdog starves
an endpoint whose oldest flit has waited JWAIT cycles. -/
def Claims.StreamDelivery : Prop :=
  ∀ (s : State) (c : CoreCode), s.die.coreOn c.toNat = true →
    let k := s.coreAt c
    let now := s.die.cyc
    let err (ep wait : Nat) (st : Status) : Word := BitVec.ofNat 32 (put 1 31 + put (ep + put wait 4) 16 + st.toNat)
    let logged (t : State) (st : Status) : Prop := s.die.flog.length < 32 → ∃ e ∈ t.die.flog, e.sev = 1 ∧ e.src = 0 ∧ e.loc = c.toNat ∧ e.st = st
    let starves (t : State) (ep wait : Nat) : Prop := ((t.coreAt c).ep ep).starved = true ∧ ((t.coreAt c).ep ep).q = (k.ep ep).q ∧
      (t.coreAt c).reg 0x4240 = err ep wait St.JOIN_STARVED ∧ logged t St.JOIN_STARVED
    (k.rx.find? (fun f => f.h.vc == 1 && decide (f.h.kind < 3)) = none → exec (.flitDelivery c) s = .next (s.withCore c k)) ∧
    (∀ f, k.rx.find? (fun f => f.h.vc == 1 && decide (f.h.kind < 3)) = some f →
      let h := f.h
      let p := k.ep h.dep
      let rx := k.rx.erase f
      let kept : EpFlit := ⟨h.tail, BitVec.ofNat 16 h.mseq, f.pay, f.err, now, s.die.ts, (k.gateOn h.dep).isSome, none⟩
      let queued : List EpFlit := if h.tail = true ∧ k.gateOn h.dep = none then (p.q ++ [kept]).map (fun x => x.unheld now) else p.q ++ [kept]
      let joins (y : Core) : Core := { y with
        eps := tmod .reset k.eps h.dep (fun p : Endpoint => { p with q := queued, fidx := if h.tail then 0 else h.fidx + 1 }) }
      let acks (y : Core) : Core := if h.tail then { y with
        hallIn := y.hallIn + 1
        hall := y.hall ++ [Flit.mk' ⟨0, 4, true, false, h.src, h.sep, c.toNat, h.dep, h.mseq, 0⟩
          [(if k.spanArr then s.die.reg 0xC0004 + 1 else s.die.reg 0xC0004).setWidth 64]] } else y
      (k.epMode h.dep = 2 → p.starved = false → p.spillCount = 0 → p.ringCount < fld (k.epReg h.dep 0xC) 6 0 →
        (fld (k.epReg h.dep 0x18) 15 0 = h.mseq → p.fidx = h.fidx → f.leaves = [] →
          let y := { k with rx := rx }.setReg (0x4018 + 32 * h.dep) (BitVec.ofNat 32 (if h.tail then (h.mseq + 1) % 65536 else h.mseq))
          exec (.flitDelivery c) s = .next (s.withCore c (acks (joins (y.bump now 0x424C 1))))) ∧
        ((fld (k.epReg h.dep 0x18) 15 0 ≠ h.mseq ∨ p.fidx ≠ h.fidx) → Answers (exec (.flitDelivery c) s) (fun t =>
          ((t.coreAt c).ep h.dep).q = queued ∧ (t.coreAt c).reg 0x4240 = err h.dep 0 St.STRM_SEQ ∧ logged t St.STRM_SEQ))) ∧
      (k.epMode h.dep = 2 → p.starved = false → fld (k.epReg h.dep 0xC) 6 0 ≤ p.ringCount → bit (k.epReg h.dep 0) 25 = false →
        Answers (exec (.flitDelivery c) s) (fun t => starves t h.dep 0 ∧ (t.coreAt c).reg 0x4244 = satAdd32 (k.reg 0x4244) 1)) ∧
      (k.epMode h.dep = 2 → p.starved = true → h.tail = false → exec (.flitDelivery c) s =
        .next (s.withCore c ({ k with rx := rx }.bump now 0x4244 1))) ∧
      (k.epMode h.dep ≠ 2 → h.tail = false →
        exec (.flitDelivery c) s = .next (s.withCore c (({ k with rx := rx }.mark now 0x4240 (err h.dep 0 St.STRM_MODE)).bump now 0x4244 1)))) ∧
    ((∀ f ∈ k.rx, f.h.vc ≠ 0 ∨ f.h.kind ≠ 4) → exec (.ackReceive c) s = .next (s.withCore c k)) ∧
    (∀ f, k.rx.find? (fun f => f.h.vc == 0 && f.h.kind == 4) = some f →
      let counts : Prop := bit (k.epReg f.h.dep 0) 24 = true ∨ f.h.mseq = (k.ep f.h.dep).sent
      (counts → exec (.ackReceive c) s = .next (s.withCore c
        { k with rx := k.rx.erase f, eps := tmod .reset k.eps f.h.dep (fun p : Endpoint => { p with acks := p.acks + 1 }) })) ∧
      (¬ counts → exec (.ackReceive c) s = .next (s.withCore c { k with rx := k.rx.erase f }))) ∧
    (∀ ep : Fin 16,
      let due : Prop := ∃ f fs, (k.ep ep.val).q = f :: fs ∧ (k.epReg ep.val 0x1C).toNat ≠ 0 ∧ f.held = false ∧ (k.ep ep.val).starved = false ∧
        f.cyc + (k.epReg ep.val 0x1C).toNat ≤ now
      (¬ due → exec (.joinWaitExpiry c ep) s = .next (s.withCore c k)) ∧
      (due → Answers (exec (.joinWaitExpiry c ep) s) (fun t => starves t ep.val 1)))

/-- R233, R302 to R305: an enabled steering unit that holds a token and a whole message with its number takes both and offers the message,
4 cycles after the later came, on the endpoint that SEL names, or drops it under SEL 15; a token that does not fit stops the unit with
STEER_TAG. A gate releases its ROWS oldest rows when it holds them, every row it holds at the deadline of the oldest, and every row when
it is closed; only complete rows are released, in order. -/
def Claims.SteeringAndGates : Prop :=
  ∀ (s : State) (c : CoreCode), s.die.coreOn c.toNat = true →
    let k := s.coreAt c
    let w := s.wk c
    let now := s.die.cyc
    (∀ u : Fin 2,
      let ctl := k.reg (0x4200 + 8 * u.val)
      let tep := fld ctl 27 24
      let dep := fld ctl 23 20
      let on : Prop := bit ctl 31 = true ∧ (k.steer u.val).stopped = false ∧ (k.steer u.val).out = [] ∧ k.active = some (k.epCtx dep)
      ((¬ on ∨ (k.ep tep).message = none ∨ (k.ep dep).message = none) → exec (.steerForward c u) s = .next (s.withCore c k)) ∧
      (on → ∀ t ts m ms, (k.ep tep).message = some (t :: ts) → (k.ep dep).message = some (m :: ms) →
        let t0 := w.epPayload (k.epCtx tep) t
        let read := (m :: ms).foldl (fun (y : Wk) f => (y.epPayload (k.epCtx dep) f).1) t0.1
        let word := t0.2.headD 0
        let sel := fld word 19 16
        let fits : Prop := (sel = 15 ∨ (sel < 4 ∧ bit ctl (16 + sel) = true)) ∧ BitVec.ofNat 16 (fld word 15 0) = m.mseq
        (w.spillWait (t :: m :: ms) = true → exec (.steerForward c u) s = .next (s.withCore c k)) ∧
        (w.spillWait (t :: m :: ms) = false → fits → read.evs = [] → CoreGives (exec (.steerForward c u) s) s c (fun k' =>
          k' = { read.c with eps := k'.eps, steers := k'.steers } ∧
          (k'.steer u.val).ltag = m.mseq ∧ (k'.steer u.val).stopped = false ∧
          (sel = 15 → (k'.steer u.val).out = []) ∧
          (sel < 4 → (k'.steer u.val).out.map (fun f : EpFlit => (f.tail, f.mseq, f.pay)) = (m :: ms).map (fun f => (f.tail, f.mseq, (w.epPayload (k.epCtx dep) f).2)) ∧
            (k'.steer u.val).ep = fld ctl (4 * sel + 3) (4 * sel) ∧ (k'.steer u.val).ready = max (latest (m :: ms)) t.cyc + 4) ∧
          (tep ≠ dep → (k'.ep tep).q = (k.ep tep).q.drop 1 ∧ (k'.ep dep).q = (k.ep dep).q.drop (ms.length + 1)))) ∧
        (w.spillWait (t :: m :: ms) = false → ¬ fits → Answers (exec (.steerForward c u) s) (fun t => ((t.coreAt c).steer u.val).stopped = true ∧ (t.coreAt c).eps = k.eps ∧
          (t.coreAt c).reg 0x4240 = BitVec.ofNat 32 (put 1 31 + put u.val 16 + St.STEER_TAG.toNat))))) ∧
    (∀ g : Fin 2,
      let off := 0x4260 + 16 * g.val
      let ctl := k.reg off
      let ep := fld ctl 3 0
      let p := k.ep ep
      let released (y : Core) (n : Nat) (late : Bool) : Core := { y with
        eps := tmod .reset k.eps ep (fun p : Endpoint => { p with q := releaseRows now n p.q })
        gateRel := tset (0, false) k.gateRel g.val (n, late) }
      (bit ctl 31 = true → 0 < p.heldRows → gateRows ctl ≤ p.heldRows → exec (.gateRowsRelease c g) s =
        .next (s.withCore c (released k (gateRows ctl) false))) ∧
      ((bit ctl 31 = false ∨ p.heldRows = 0 ∨ p.heldRows < gateRows ctl) → exec (.gateRowsRelease c g) s = .next (s.withCore c k)) ∧
      (∀ f, p.q.find? (fun f => f.held && f.tail) = some f → bit ctl 31 = true → k.reg (off + 4) ≠ 0 → p.heldRows < gateRows ctl →
        f.ts.toNat + (k.reg (off + 4)).toNat ≤ s.die.ts.toNat → bit (s.die.reg 0xC0000) 31 = false →
        exec (.gateDeadlineRelease c g) s = .next (s.withCore c
          (released (k.bump now (off + 12) 1) p.heldRows true))) ∧
      ((p.heldRows = 0 ∨ bit ctl 31 = false ∨ k.reg (off + 4) = 0 ∨ gateRows ctl ≤ p.heldRows ∨
        ∀ f ∈ p.q, s.die.ts.toNat < f.ts.toNat + (k.reg (off + 4)).toNat) →
        exec (.gateDeadlineRelease c g) s = .next (s.withCore c k)) ∧
      (∀ v : Word, k.annex = false →
        let same : Prop := fld v 3 0 = ep ∧ fld v 12 8 = fld ctl 12 8
        (same → bit v 31 = false → bit ctl 31 = true → exec (.gateCtlWrite c g v) s =
          .next (s.withCore c (released (k.setReg off (v &&& 0x80001F0F)) p.heldRows false))) ∧
        (same → bit v 31 = true → k.epMode ep = 2 → (bit (k.reg (0x4260 + 16 * (1 - g.val))) 31 = false ∨ fld (k.reg (0x4260 + 16 * (1 - g.val))) 3 0 ≠ ep) →
          exec (.gateCtlWrite c g v) s = .next (s.withCore c (k.setReg off (v &&& 0x80001F0F)))) ∧
        (bit v 31 = true → same → k.epMode ep ≠ 2 → exec (.gateCtlWrite c g v) s = .next (s.withCore c
          (k.mark now 0x4240 (BitVec.ofNat 32 (put ep 16 + St.STRM_MODE.toNat))))) ∧
        (fld v 3 0 ≠ ep → k.ctxBusy (k.epCtx ep) = false → k.ctxBusy (k.epCtx (fld v 3 0)) = false → bit ctl 31 = true → bit v 31 = true →
          k.epMode (fld v 3 0) = 2 → (bit (k.reg (0x4260 + 16 * (1 - g.val))) 31 = false ∨ fld (k.reg (0x4260 + 16 * (1 - g.val))) 3 0 ≠ fld v 3 0) →
          exec (.gateCtlWrite c g v) s = .next (s.withCore c (released (k.setReg off (v &&& 0x80001F0F)) p.heldRows false))) ∧
        (¬ same → (k.ctxBusy (k.epCtx ep) = true ∨ k.ctxBusy (k.epCtx (fld v 3 0)) = true) → Answers (exec (.gateCtlWrite c g v) s) (fun t =>
          (t.coreAt c).reg off = ctl ∧ (t.coreAt c).eps = k.eps ∧
          (t.coreAt c).reg 0x4240 = BitVec.ofNat 32 (put 1 31 + put (fld v 3 0) 16 + St.CTX_STATE.toNat))))) ∧
    (∀ (n : Nat) (p : Endpoint), n ≤ p.heldRows →
      ({ p with q := releaseRows now n p.q }).heldRows + n = p.heldRows ∧
      (releaseRows now n p.q).map (fun f : EpFlit => (f.tail, f.mseq, f.pay, f.ts)) = p.q.map (fun f => (f.tail, f.mseq, f.pay, f.ts)) ∧
      (releaseRows now 0 p.q = p.q))

/-- Delivery to a sink endpoint, steering units and fill gates. -/
def Obligations.StreamDelivery : Prop :=
  Claims.StreamDelivery ∧ Claims.SteeringAndGates

/-! ### The mesh -/

/-- R204, R208, R212, R224, R227, R228, R235: a flit at an input goes, its words checked, into the queue of its output, along the row first and
then along the column, each hop one nearer; into the queue of every branch of its multicast tree that has a place, held at the fork for the
others; or to the combination of its reduction tree. A flit with an uncorrectable header or of a tree the router does not have is
dropped; one that finds no room stays with those of its VC behind it, and a flit of another VC goes past it. -/
def Claims.RouterHops : Prop :=
  (∀ code to_ exit_ : Nat, isCore code = true → isCore to_ = true → code ≠ to_ → ∃ n p, neighbour code (hop code to_ exit_) = some (n, p) ∧ isCore n = true ∧
    hop code to_ exit_ = (if code % 64 < to_ % 64 then 2 else if to_ % 64 < code % 64 then 4 else if code / 64 < to_ / 64 then 3 else 1) ∧
    max (n / 64) (to_ / 64) - min (n / 64) (to_ / 64) + (max (n % 64) (to_ % 64) - min (n % 64) (to_ % 64)) + 1 =
      max (code / 64) (to_ / 64) - min (code / 64) (to_ / 64) + (max (code % 64) (to_ % 64) - min (code % 64) (to_ % 64))) ∧
  (∀ code exit_ : Nat, hop code code exit_ = exit_) ∧
  (∀ (s : State) (c : CoreCode) (p : Fin 7), s.die.meshOn = true → isCore c.toNat = true →
    let r := s.die.router c.toNat
    let gives (f : Router → Router) : Prop := exec (.routerHop c p) s = .next (s.withDie (s.die.modRouter c.toNat f))
    let buffered (f : Flit) : Prop := (f.h.vc = 1 → r.forkHeld p.val < 4) ∧ (f.h.vc ≠ 1 → r.heldFrom f.h.vc p.val < 2)
    let waits (f : Flit) (fs : List Flit) : Prop :=
      ((∀ g ∈ fs, g.err = [] ∧ g.h.vc = f.h.vc) → exec (.routerHop c p) s = .next s) ∧
      (∀ g gs, fs = g :: gs → g.err = [] → g.h.vc ≠ f.h.vc → g.h.vc ≠ 3 → g.onTree = false → buffered g →
        (g.h.vc = 1 → r.vc1At (s.die.outOf c.toNat g) < 24) → gives (fun r => (r.take p.val g).push (s.die.outOf c.toNat g) p.val s.die.cyc g))
    (r.inp p.val = [] → exec (.routerHop c p) s = .next s) ∧
    (∀ f fs, r.inp p.val = f :: fs → f.err = [] → f.h.vc ≠ 3 →
      let o := s.die.outOf c.toNat f
      let tree := f.h.dest % 64
      let a := r.reg (0x5100 + 8 * tree)
      (¬ buffered f → waits f fs) ∧
      (f.onTree = false →
        (f.farModule = none → f.forDie = false → o = hop c.toNat f.h.dest 0) ∧
        (f.h.vc = 1 → 24 ≤ r.vc1At o → waits f fs) ∧
        (buffered f → (f.h.vc ≠ 1 ∨ r.vc1At o < 24) → gives (fun r => (r.take p.val f).push o p.val s.die.cyc f) ∧
          ((r.take p.val f).push o p.val s.die.cyc f).out o = r.out o ++ [⟨f.h.vc, p.val, s.die.cyc, f⟩] ∧
          ((r.take p.val f).push o p.val s.die.cyc f).inp p.val = fs)) ∧
      (f.onTree = true → buffered f →
        ((bit a 31 = false ∨ bit a 30 ≠ (f.h.kind == 2)) → gives (fun r => r.take p.val f)) ∧
        (bit a 31 = true → bit a 30 = false → f.h.kind = 1 →
          let goes (o : Nat) : Prop := bit a (16 + o) = true ∧ (f.h.vc = 1 → r.forkFree o tree = true)
          Answers (exec (.routerHop c p) s) (fun t => (t.die.router c.toNat).inp p.val = fs ∧
            ((∀ o, o < 6 → bit a (16 + o) = true → goes o) → (t.die.router c.toNat).fork = r.fork) ∧
            ((∃ o, o < 6 ∧ bit a (16 + o) = true ∧ ¬ goes o) → ∃ os, (t.die.router c.toNat).fork = r.fork ++ [⟨p.val, os, f⟩] ∧
              ∀ o, o ∈ os ↔ o < 6 ∧ bit a (16 + o) = true ∧ ¬ goes o) ∧
            ∀ o, o < 6 → (goes o → (t.die.router c.toNat).out o = r.out o ++ [⟨f.h.vc, p.val, s.die.cyc,
                if o = 0 then f.withHdr { f.h with dep := fld a 3 0 } else f⟩]) ∧
              (¬ goes o → (t.die.router c.toNat).out o = r.out o))) ∧
        (bit a 31 = true → bit a 30 = true → f.h.kind = 2 →
          (∀ q, r.children tree = [q] →
            (r.vc1At (fld a 26 24) < 24 →
              gives (fun r => (r.take p.val f).push (fld a 26 24) p.val s.die.cyc (f.toLocal (fld a 26 24) (fld a 3 0)))) ∧
            (24 ≤ r.vc1At (fld a 26 24) → waits f fs)) ∧
          ((r.children tree).length ≠ 1 →
            let whole : Prop := r.partials tree ≤ (r.childFlits tree p.val).length ∧
              (fld (r.reg (0x5104 + 8 * tree)) 30 28 + 1 ≤ r.partials tree ∨ 8 ≤ r.allPartials)
            (whole → waits f fs) ∧
            (¬ whole → gives (fun r => { r.take p.val f with red := r.red ++ [⟨tree, p.val, f⟩] }))))))) ∧
  (∀ (s : State) (c : CoreCode) (p : Fin 7) (f : Flit) (fs : List Flit), s.die.meshOn = true → isCore c.toNat = true →
    (s.die.router c.toNat).inp p.val = f :: fs → f.err = [(0, .poison)] → Answers (exec (.routerHop c p) s) (fun t =>
      (t.die.router c.toNat).inp p.val = fs ∧ (t.die.router c.toNat).outq = (s.die.router c.toNat).outq ∧
      (t.die.router c.toNat).reg 0x5010 = satAdd32 ((s.die.router c.toNat).reg 0x5010) 1 ∧
      (t.die.router c.toNat).reg 0x5020 = BitVec.ofNat 32 (put 1 31 + St.MESH_UE.toNat) ∧
      (s.die.flog.length < 32 → ∃ e ∈ t.die.flog, e.src = 1 ∧ e.loc = c.toNat ∧ e.st = St.MESH_UE)))

/-- R209: the oldest VC2 flit that has waited 256 cycles is granted before VC1 when its output has credit, no VC0 flit is ready, no other grant
was made in the cycle, and 256 cycles have passed since the last such grant; the pointer moves to the next input. Nothing happens
otherwise. R549: the oldest flit that the Cellar or die control sent in an earlier cycle enters the router of (23, 23) by its Cellar port, one in
a cycle. -/
def Claims.AgedGrants : Prop :=
  (∀ (s : State) (c : CoreCode) (o : Fin 7), s.die.meshOn = true → isCore c.toNat = true →
    let r := s.die.router c.toNat
    let now := s.die.cyc
    let aged := oldest ((r.out o.val).filter (fun x => x.vc == 2 && decide (x.at_ + 256 ≤ now)))
    let may (x : OutFlit) : Prop := (∀ n, tget none r.aged o.val = some n → n + 256 ≤ now) ∧ tget 0 r.granted o.val ≠ now + 1 ∧
      (∀ y ∈ r.out o.val, y.vc = 0 → now ≤ y.at_) ∧ s.die.credit c.toNat o.val x.flit = true
    ((∀ x, aged = some x → ¬ may x) → exec (.vc2AgedGrant c o) s = .next s) ∧
    (∀ x n p, aged = some x → may x → r.fork = [] → neighbour c.toNat o.val = some (n, p) → exec (.vc2AgedGrant c o) s = .next (s.withDie
      ((s.die.modRouter c.toNat (fun r : Router => { r.leave (24 + x.inp) now with
        outq := tset [] r.outq o.val ((r.out o.val).erase x)
        granted := tset 0 r.granted o.val (now + 1)
        ptr := tset 0 r.ptr o.val (nextInput c.toNat x.inp)
        aged := tset none r.aged o.val (some now) })).enter n p x.flit)) ∧ x.vc = 2 ∧ (∀ y ∈ r.out o.val, y.vc = 2 → x.at_ ≤ y.at_))) ∧
  (∀ s : State, s.die.meshOn = true →
    (s.die.celIn = [] → exec .cellarPortFlit s = .next s) ∧
    (∀ n f fs, s.die.celIn = (n, f) :: fs →
      (n < s.die.cyc → s.die.celAt ≠ some s.die.cyc →
        exec .cellarPortFlit s = .next (s.withDie (({ s.die with celIn := fs, celAt := some s.die.cyc }).enter 1495 6 f))) ∧
      ((s.die.cyc ≤ n ∨ s.die.celAt = some s.die.cyc) → exec .cellarPortFlit s = .next s)))

/-- R227 to R229: a router that holds one flit of every child of a reduction tree sends their sum, lane by lane in the tree's order, to the
parent port under the number and index of its inputs; inputs that differ in number or index send nothing and record RED_TAG. It
waits while a child has none, or the parent's queue no place. -/
def Claims.Reductions : Prop :=
  ∀ (s : State) (c : CoreCode) (tree : Fin 64), s.die.meshOn = true → isCore c.toNat = true →
    let r := s.die.router c.toNat
    let a := r.reg (0x5100 + 8 * tree.val)
    let cs := r.children tree.val
    ((bit a 31 = false ∨ bit a 30 = false ∨ ∃ p ∈ cs, r.childFlits tree.val p = []) → exec (.reductionCombine c tree) s = .next s) ∧
    (∀ f g gs, bit a 31 = true → bit a 30 = true → cs.Nodup → cs.map (fun p => (r.childFlits tree.val p).head?) = (f :: g :: gs).map some →
      ((∀ x ∈ g :: gs, x.h.mseq = f.h.mseq ∧ x.h.fidx = f.h.fidx) → 24 ≤ r.vc1At (fld a 26 24) → exec (.reductionCombine c tree) s = .next s) ∧
      ((∀ x ∈ g :: gs, x.h.mseq = f.h.mseq ∧ x.h.fidx = f.h.fidx) → r.vc1At (fld a 26 24) < 24 → Answers (exec (.reductionCombine c tree) s) (fun t => ∃ y,
        (t.die.router c.toNat).out (fld a 26 24) = r.out (fld a 26 24) ++ [y] ∧ y.vc = f.h.vc ∧ y.at_ = s.die.cyc ∧
        y.flit.pay = (g :: gs).foldl (fun v x => (addPayload v x.pay).1) f.pay ∧ y.flit.h.mseq = f.h.mseq ∧ y.flit.h.fidx = f.h.fidx ∧
        y.flit.h.tail = f.h.tail ∧ y.flit.h.dep = (if fld a 26 24 = 0 then fld a 3 0 else f.h.dep) ∧
        (∀ p ∈ cs, (t.die.router c.toNat).childFlits tree.val p = (r.childFlits tree.val p).tail) ∧ t.die.flog = s.die.flog)) ∧
      ((∃ x ∈ g :: gs, x.h.mseq ≠ f.h.mseq ∨ x.h.fidx ≠ f.h.fidx) → Answers (exec (.reductionCombine c tree) s) (fun t =>
        (t.die.router c.toNat).outq = r.outq ∧ (t.die.router c.toNat).reg 0x5020 = BitVec.ofNat 32 (put 1 31 + put tree.val 16 + St.RED_TAG.toNat) ∧
        (∀ p ∈ cs, (t.die.router c.toNat).childFlits tree.val p = (r.childFlits tree.val p).tail) ∧
        (s.die.flog.length < 32 → ∃ e ∈ t.die.flog, e.src = 1 ∧ e.loc = c.toNat ∧ e.st = St.RED_TAG)))) ∧
    (∀ (x y : List (BitVec 64)) (i : Nat), i < x.length → x.length = y.length → nth 0 (addPayload x y).1 i =
      (fAdd ((nth 0 x i).extractLsb' 32 32) ((nth 0 y i).extractLsb' 32 32)).1 ++ (fAdd ((nth 0 x i).setWidth 32) ((nth 0 y i).setWidth 32)).1)

/-- The hops of a router, its aged grants and its reductions. -/
def Obligations.Routers : Prop :=
  Claims.RouterHops ∧ Claims.AgedGrants ∧ Claims.Reductions

/-! ### Tensor movement -/

/-- R253: every place at coordinates inside the extents lies inside the footprint, whatever the strides' signs, byte elements and bit-plane
groups alike: no check is needed when a descriptor runs. -/
def Obligations.FootprintsHoldEveryElement : Prop :=
  ∀ (s : Side) (t : List Int), s.e.length = 5 → s.inBounds t = true →
    ∃ lo hi, s.footprint = some (lo, hi) ∧ ∀ a ∈ (s.loc t).offs, lo ≤ a ∧ a ≤ hi

/-- R252 to R255, R258: a descriptor that passes validation has permutations for both sides, its handles are valid, and each side's footprint lies
inside its handle's buffer or inside one range entry that allows its direction and channel; two local sides of one memory do not
overlap. -/
def Claims.ValidDescriptors : Prop :=
  ∀ (w : Wk) (ctx : Nat) (d : List Word), w.validate ctx d = St.OK →
    ∃ cv, w.cvt (dw d 1) = some cv ∧
      let s := sideOf d 16 cv.src
      let t := sideOf d 40 cv.dst
      descModeBad d = false ∧ isPerm s.perm = true ∧ isPerm t.perm = true ∧
      (∀ lo hi, s.footprint = some (lo, hi) →
        (s.fab = false → ∃ b, w.handle ctx s.h false = .inl b ∧ 0 ≤ lo ∧ hi < b.size) ∧
        (s.fab = true → w.rangeAllows ctx (dCh d) false lo hi = true)) ∧
      (∀ lo hi, t.footprint = some (lo, hi) →
        (t.fab = false → ∃ b, w.handle ctx t.h true = .inl b ∧ 0 ≤ lo ∧ hi < b.size) ∧
        (t.fab = true → w.rangeAllows ctx (dCh d) true lo hi = true)) ∧
      (∀ a b l1 h1 l2 h2, s.fab = false → t.fab = false → w.handle ctx s.h false = .inl a → w.handle ctx t.h true = .inl b →
        s.footprint = some (l1, h1) → t.footprint = some (l2, h2) → a.mem = b.mem →
        (a.base : Int) + h1 < b.base + l2 ∨ (b.base : Int) + h2 < a.base + l1) ∧
      (dMode d = 3 → (t.typ = .fp32 ∨ t.typ = .int32) ∧ (t.fab = true → w.ownCore t.addr = true))

/-- R248: a transfer visits each iteration point once, dimension 0 fastest: point n has n = i0 + N0(i1 + N1(i2 + N2(i3 + N3 × i4))), each index
below its size. -/
def Claims.IterationPoints : Prop :=
  ∀ (d : List Word) (n : Nat), n < dTotal d →
    ∃ i0 i1 i2 i3 i4, pointOf d n = [i0, i1, i2, i3, i4] ∧ i0 < dN d 0 ∧ i1 < dN d 1 ∧ i2 < dN d 2 ∧ i3 < dN d 3 ∧ i4 < dN d 4 ∧
      n = i0 + dN d 0 * (i1 + dN d 1 * (i2 + dN d 2 * (i3 + dN d 3 * i4)))

/-- What a descriptor that passes validation keeps to; the order of iteration points. -/
def Obligations.ValidDescriptors : Prop :=
  Claims.ValidDescriptors ∧ Claims.IterationPoints

/-- R245, R330: the lines of a transfer become messages of consecutive lines that go by one way, in order and none lost: at most eight lines
a message, with only whole lines after the sixth. A read request asks for consecutive lines that go by one way, at most as many as its
channel's bucket holds, and for one at least. -/
def Claims.MessagesHoldEveryLine : Prop :=
  (∀ (att : Nat → Nat) (go : Nat → Option (Bool × Nat)) (merge : Bool) (ls : List LineW),
    (cutLines att go merge ls).flatten = ls ∧
    ∀ m ∈ cutLines att go merge ls, m ≠ [] ∧ m.length ≤ 8 ∧ (merge = false → m.length = 1) ∧
      (∀ i, i < m.length →
        let x := nth ⟨0, [], [], false⟩ m i
        let y := nth ⟨0, [], [], false⟩ m 0
        x.line = y.line + i ∧ att x.line = att y.line + i ∧ go (att x.line) = go (att y.line) ∧ (6 ≤ i → x.whole = true ∨ x.bits = true))) ∧
  (∀ (att : Nat → Nat) (go : Nat → Option (Bool × Nat)) (cap : Nat) (ls : List Nat), 0 < cap → ls ≠ [] →
    let n := runLength att go cap ls
    0 < n ∧ n ≤ cap ∧ n ≤ ls.length ∧ ∀ i, i < n →
      nth 0 ls i = nth 0 ls 0 + i ∧ att (nth 0 ls i) = att (nth 0 ls 0) + i ∧ go (att (nth 0 ls i)) = go (att (nth 0 ls 0))) ∧
  (∀ (r : Run) (att : Nat → Nat) (go : Nat → Option (Bool × Nat)) (burst : Nat) (die : DieAddr),
    (r.toRead = [] → r.nextRead att go burst die = none) ∧
    (r.toRead ≠ [] → ∃ m, r.nextRead att go burst die = some m ∧ m.lines = runLength att go (max 1 (min 8 burst)) r.toRead ∧
      m.addr = BitVec.ofNat 64 (64 * nth 0 r.toRead 0) ∧ m.dest = BitVec.ofNat 64 (64 * att (nth 0 r.toRead 0)) ∧ m.first = r.asked))

/-- R244, R252, R254, R260: DDEF, and a Service write of word 0, validate: the slot takes the words and is VALID, or the status is recorded and
VALID is 0 (DDEF is refused); a write of another word takes VALID away; a write of a range entry sets its field, takes VALID from every
descriptor in the entry, and an entry that then covers what it may not is closed with DMA_RANGE. While the context runs the writes
are refused. A DDEF holds the validation logic for 12 cycles. -/
def Claims.Descriptors : Prop :=
  (∀ (s : State) (c : CoreCode) (ctx pc : Nat) (x : BitVec 64) (bytes : List Byte), ctx < 4 → s.Runs c ctx pc x 0x18 →
    let w := s.issuedWk c ctx pc x
    let k := w.c
    let slot := fld x 57 54
    let a := w.addr ctx (fld x 44 34) 64 (bit x 49) (fld x 48 45)
    let d := (BitVec.ofNat 32 (elemAt bytes 4 0 % 2 ^ 31)) :: (List.range 63).map (fun i => BitVec.ofNat 32 (elemAt bytes 4 (i + 1)))
    (w.mayStart 3 = true → w.Reads ctx (fld x 53 50) (span a 256) bytes → k.defFree ≤ s.die.cyc → (∀ y ∈ k.ports, y.port ≠ portDma) →
      (w.validate ctx d = St.OK → CoreGives (exec (.ddef c) s) s c (fun k' =>
        k' = { k with
          regs := k'.regs, queues := [], ballast := tset .released k.ballast 3 (.active s.die.cyc), defFree := s.die.cyc + 12
          ports := k.ports ++ w.asks ctx (fld x 53 50) portDma 0 false (span a 256) } ∧
        (∀ i, 1 ≤ i → i < 64 → k'.reg (descReg ctx slot i) = nth 0 d i) ∧
        k'.reg (descReg ctx slot 0) = BitVec.ofNat 32 (put 1 31 + (nth 0 d 0).toNat) ∧
        k'.reg 0x6054 = BitVec.ofNat 32 (put 1 31 + put ctx 20 + put slot 16) ∧
        (∀ o, o ≠ 0x6054 → (o < descReg ctx slot 0 ∨ descReg ctx slot 64 ≤ o) → k'.reg o = k.reg o))) ∧
      (w.validate ctx d ≠ St.OK → Answers (exec (.ddef c) s) (fun t => s.Faulted t c ctx 4 pc (w.validate ctx d) ∧
        bit ((t.coreAt c).reg (descReg ctx slot 0)) 31 = false ∧
        fld ((t.coreAt c).reg 0x6054) 15 0 = (w.validate ctx d).toNat ∧ bit ((t.coreAt c).reg 0x6054) 31 = false ∧
        (∀ i, 1 ≤ i → i < 64 → (t.coreAt c).reg (descReg ctx slot i) = k.reg (descReg ctx slot i))))) ∧
    (k.engine s.die.cyc 3 = .released → exec (.ddef c) s = .next (s.withCore c { k with ballast := tset .released k.ballast 3 .waiting }))) ∧
  (∀ (s : State) (c : CoreCode) (ctx : Fin 4) (v : Word), s.die.coreOn c.toNat = true →
    let k := s.coreAt c
    let busy := k.ctxBusy ctx.val
    (∀ (slot : Fin 16),
      let off (i : Nat) : Nat := descReg ctx.val slot.val i
      let v0 : Word := v &&& 0x7FFFF000
      let y := k.setReg (off 0) v0
      let st := Wk.validate ⟨s.die.env c, y, []⟩ ctx.val (y.desc ctx.val slot.val)
      let stat (ok : Nat) (st : Status) : Word := BitVec.ofNat 32 (put ok 31 + put ctx.val 20 + put slot.val 16 + st.toNat)
      (busy = false → st = St.OK → CoreGives (exec (.descriptorWord0Write c ctx slot v) s) s c (fun k' => k' = { k with regs := k'.regs } ∧
        k'.reg (off 0) = BitVec.ofNat 32 (v0.toNat + put 1 31) ∧ k'.reg 0x6054 = stat 1 St.OK ∧
        (∀ o, o ≠ off 0 → o ≠ 0x6054 → k'.reg o = k.reg o))) ∧
      (busy = false → st ≠ St.OK → CoreGives (exec (.descriptorWord0Write c ctx slot v) s) s c (fun k' => k' = { k with regs := k'.regs, fresh := k'.fresh } ∧
        k'.reg (off 0) = v0 ∧ k'.reg 0x6054 = stat 0 st ∧
        k'.reg 0x6050 = BitVec.ofNat 32 (put 1 31 + put (fld v 27 26) 16 + st.toNat) ∧
        (∀ o, o ≠ off 0 → o ≠ 0x6054 → o ≠ 0x6050 → k'.reg o = k.reg o))) ∧
      (busy = true → CoreGives (exec (.descriptorWord0Write c ctx slot v) s) s c (fun k' => k' = { k with regs := k'.regs, fresh := k'.fresh } ∧
        k'.reg 0x6054 = stat 0 St.CTX_STATE ∧ (∀ o, o ≠ 0x6054 → o ≠ 0x6050 → k'.reg o = k.reg o))) ∧
      (∀ i : Fin 63,
        (busy = false → CoreGives (exec (.descriptorWordWrite c ctx slot i v) s) s c (fun k' => k' = { k with regs := k'.regs } ∧
          k'.reg (off (i.val + 1)) = v ∧ k'.reg (off 0) = BitVec.ofNat 32 ((k.reg (off 0)).toNat % 2 ^ 31) ∧
          (∀ o, o ≠ off 0 → o ≠ off (i.val + 1) → k'.reg o = k.reg o))) ∧
        (busy = true → CoreGives (exec (.descriptorWordWrite c ctx slot i v) s) s c (fun k' => k' = { k with regs := k'.regs, fresh := k'.fresh } ∧
          k'.reg 0x6054 = stat 0 St.CTX_STATE ∧ (∀ o, o ≠ 0x6054 → o ≠ 0x6050 → k'.reg o = k.reg o))))) ∧
    (∀ (e : Fin 8) (r : Fin 4),
      let b := 0x6400 + 0x100 * ctx.val + 16 * e.val
      let field : Word := v &&& (if r.val = 0 then 0xE000000F else if r.val = 1 then 0xFFFFFFC0 else 0xFFFFFFFF)
      let y := k.setReg (b + 4 * r.val) field
      let wy : Wk := ⟨s.die.env c, y, []⟩
      let base := (y.reg (b + 4)).toNat + put (y.reg (b + 8)).toNat 32
      let size := 64 * (y.reg (b + 12)).toNat
      let bad : Prop := bit (y.reg b) 31 = true ∧
        (wy.fabricOk base size = false ∨ wy.atticForbids base size (bit (y.reg b) 30) (bit (y.reg b) 29) = true)
      let descs (k' : Core) : Prop := k' = { k with regs := k'.regs, fresh := k'.fresh } ∧
        (∀ i, i < 16 → liesIn wy (y.desc ctx.val i) base (base + size) = true → bit (k'.reg (descReg ctx.val i 0)) 31 = false) ∧
        (∀ i, i < 16 → (k'.reg (descReg ctx.val i 0)).toNat % 2 ^ 31 = (k.reg (descReg ctx.val i 0)).toNat % 2 ^ 31) ∧
        (∀ o, (o < b ∨ b + 16 ≤ o) → o ≠ 0x6050 → (∀ i, i < 16 → o ≠ descReg ctx.val i 0) → k'.reg o = k.reg o) ∧
        (∀ j, j < 4 → j ≠ r.val → j ≠ 0 → k'.reg (b + 4 * j) = k.reg (b + 4 * j))
      (busy = true → exec (.rangeEntryWrite c ctx e r v) s = .next (s.withCore c
        (k.mark s.die.cyc 0x6050 (BitVec.ofNat 32 St.CTX_STATE.toNat)))) ∧
      (busy = false → bad → CoreGives (exec (.rangeEntryWrite c ctx e r v) s) s c (fun k' => descs k' ∧
        k'.reg b = y.reg b &&& 0x7FFFFFFF ∧ (r.val ≠ 0 → k'.reg (b + 4 * r.val) = field) ∧
        k'.reg 0x6050 = BitVec.ofNat 32 (put 1 31 + St.DMA_RANGE.toNat))) ∧
      (busy = false → ¬ bad → CoreGives (exec (.rangeEntryWrite c ctx e r v) s) s c (fun k' => descs k' ∧
        k'.reg b = y.reg b ∧ k'.reg (b + 4 * r.val) = field ∧ k'.reg 0x6050 = k.reg 0x6050 ∧ k'.fresh = k.fresh))))

/-- Descriptors defined and written; the messages that hold a transfer's lines. -/
def Obligations.DescriptorsAndMessages : Prop :=
  Claims.MessagesHoldEveryLine ∧ Claims.Descriptors

/-- R240, R241, R260, R301: DGO on a VALID slot starts a run of its channel with a copy of the descriptor, the adjustments, and the seed, tweak and
span of now; a slot that is not VALID, or an adjustment of a dimension past 4, is refused. -/
def Claims.TransfersStart : Prop :=
  ∀ (s : State) (c : CoreCode) (ctx pc : Nat) (x : BitVec 64), ctx < 4 → s.Runs c ctx pc x 0x19 →
    let w := s.issuedWk c ctx pc x
    let k := w.c
    let slot := fld x 57 54
    let d := k.desc ctx slot
    let sadBad : Prop := (bit x 53 = true ∧ 5 ≤ fld x 48 46) ∨ (bit x 45 = true ∧ 5 ≤ fld x 40 38)
    (w.mayStart 3 = true →
      (bit (dw d 0) 31 = false → Answers (exec (.dgo c) s) (fun t => s.Faulted t c ctx 4 pc St.DMA_INVALID ∧
        (t.coreAt c).reg 0x6050 = BitVec.ofNat 32 (put 1 31 + put (dCh d) 16 + St.DMA_INVALID.toNat))) ∧
      (∀ cv, bit (dw d 0) 31 = true → w.cvt (dw d 1) = some cv → sadBad → Answers (exec (.dgo c) s) (fun t =>
        s.Faulted t c ctx 4 pc St.DMA_MODE)) ∧
      (∀ cv, bit (dw d 0) 31 = true → w.cvt (dw d 1) = some cv → ¬ sadBad → dMode d = 0 → bit (dw d 0) 23 = false → cv.dstMx = false →
        Answers (exec (.dgo c) s) (fun t => ∃ r, ((t.coreAt c).chan (dCh d)).run = some r ∧ r.ctx = ctx ∧ r.slot = slot ∧ r.desc = d ∧
          r.cvt = cv ∧ r.sad = (if bit x 53 then fld x 48 46 else 5) ∧ r.sa = (if bit x 53 then (k.sreg ctx (fld x 52 49)).toInt else 0) ∧
          r.dad = (if bit x 45 then fld x 40 38 else 5) ∧ r.da = (if bit x 45 then (k.sreg ctx (fld x 44 41)).toInt else 0) ∧
          r.seed = k.seed ∧ r.tweak = k.sreg ctx 15 ∧ r.span = s.die.reg 0xC0004 ∧ r.reading = [] ∧ r.acks = [] ∧
          (bit (dw d 16) 31 = false → r.toRead = []) ∧ (bit (dw d 40) 31 = false → r.toWrite = []) ∧
          (bit (dw d 16) 31 = true → r.toRead ≠ [] → r.formed = false) ∧
          (∀ ch, ch < 4 → ch ≠ dCh d → ((t.coreAt c).chan ch).run = none) ∧ (t.coreAt c).queues = [] ∧
          (t.coreAt c).ctxs = k.ctxs ∧ t.die.around = s.die.around))) ∧
    (k.engine s.die.cyc 3 = .released → exec (.dgo c) s = .next (s.withCore c { k with ballast := tset .released k.ballast 3 .waiting }))

/-- R242, R245, R264, R266, R333: a channel's next flit is admitted when the injection port is free and its bucket can spend it, a token for each
line of a read request and one for each flit of a write; a write that no table routes is dropped and recorded; a returned line is stored;
an acknowledgement ends its write; a read that failed with a denial returns zero; and the run ends when nothing of it is outstanding and
the banks have served its accesses. -/
def Claims.TransferTraffic : Prop :=
  ∀ (s : State) (c : CoreCode) (ch : Fin 4), s.die.coreOn c.toNat = true →
    let k := s.coreAt c
    let w := s.wk c
    let n := ch.val
    let same (o : Host.Outcome State Fault Refusal) : Prop := o = .next (s.withCore c k)
    let put_ (y : Core) (f : Run → Run) : Core := { y with chans := tmod .reset y.chans n (fun q : Channel => { q with run := q.run.map f }) }
    let pick (f : Flit) : Bool := k.readOut f.h && ((f.h.vc == 1 && f.h.kind == 5) || (f.h.vc == 0 && f.h.kind == 6))
    let pickAck (f : Flit) : Bool := f.h.vc == 0 && f.h.kind == 6 && !k.readOut f.h
    ((k.chan n).run = none → same (exec (.dmaRequestAdmit c ch) s) ∧ same (exec (.dgoComplete c ch) s)) ∧
    (∀ r, (k.chan n).run = some r →
      (r.toRead = [] → r.toWrite = [] → same (exec (.dmaRequestAdmit c ch) s)) ∧
      (k.injAt = some s.die.cyc → same (exec (.dmaRequestAdmit c ch) s)) ∧
      (∀ rd m, w.nextMsg n r = some (rd, m) →
        let cost := if rd then m.lines else 1
        let spent := (k.chan n).shaper.spend (k.reg (0x6010 + 8 * n)) s.die.cyc cost
        (spent = none → same (exec (.dmaRequestAdmit c ch) s)) ∧
        (∀ b far dest p, spent = some b → k.injAt ≠ some s.die.cyc → w.fabricDest m.dest = some (far, dest) → m.flits[m.sent]? = some p →
          let dep := if dMode r.desc = 3 ∧ rd = false then (if r.cvt.dst = .int32 then 2 else 1) else 0
          let y := put_ k (fun r : Run =>
            if rd then { r with toRead := r.toRead.drop m.lines, asked := r.asked + m.lines, nextTag := r.nextTag + 1, reading := r.reading ++ [m] }
            else if m.flits.length ≤ m.sent + 1 then { r with toWrite := r.toWrite.tail, acks := r.acks ++ [(m.tag, m.dest)] }
            else { r with toWrite := { m with sent := m.sent + 1 } :: r.toWrite.tail })
          let y := { y with chans := tmod .reset y.chans n (fun q : Channel => { q with shaper := b }), injAt := some s.die.cyc }
          exec (.dmaRequestAdmit c ch) s = .next (s.withDie ((s.die.setCore c.toNat y).enter c.toNat 0
            { Flit.mk' ⟨1, 5, m.sent + 1 == m.flits.length, far, dest, dep, c.toNat, n, m.tag, m.sent - 1⟩ p.1 with err := p.2 }))) ∧
        (spent ≠ none → k.injAt ≠ some s.die.cyc → w.fabricDest m.dest = none → rd = false → Answers (exec (.dmaRequestAdmit c ch) s) (fun t =>
          (t.coreAt c).chans = (put_ k (fun r : Run => { r with toWrite := r.toWrite.tail })).chans ∧
          (t.coreAt c).reg 0x6050 = BitVec.ofNat 32 (put 1 31 + put n 16 + St.NO_ROUTE.toNat) ∧
          (s.die.flog.length < 32 → ∃ e ∈ t.die.flog, e.src = 6 ∧ e.st = St.NO_ROUTE)))) ∧
      (r.formed = true →
        let idle : Prop := r.toRead = [] ∧ r.reading = [] ∧ r.toWrite = [] ∧ r.acks = [] ∧ ∀ y ∈ k.ports, y.tag ≠ n + 1
        (idle → exec (.dgoComplete c ch) s = .next (s.withCore c
          { k with chans := tmod .reset k.chans n (fun q : Channel => { q with run := none }) })) ∧
        (¬ idle → same (exec (.dgoComplete c ch) s))) ∧
      (∀ f, k.rx.find? pick = some f → f.h.sep % 4 = n →
        (∀ m, r.reading.find? (fun m => m.tag == f.h.mseq) = some m → f.h.kind = 5 → f.err = [] →
          Answers (exec (.dmaReadResponse c) s) (fun t => (t.coreAt c).rx = k.rx.erase f ∧
            ∃ r', ((t.coreAt c).chan n).run = some r' ∧ r'.got = tset [] r.got (m.first + f.h.fidx) (payBytes f.pay) ∧ r'.bad = r.bad ∧
              r'.toRead = r.toRead ∧ r'.acks = r.acks ∧
              r'.reading = (if ∀ i, i < m.lines → tget [] r'.got (m.first + i) ≠ [] then r.reading.filter (fun y => y.tag != m.tag) else r.reading))) ∧
        (∀ m, r.reading.find? (fun m => w.answers f.h (f.word 1) m.tag m.dest) = some m → f.h.kind = 6 → fld (f.word 0) 15 0 = St.WIN_DENIED.toNat →
          Answers (exec (.dmaReadResponse c) s) (fun t =>
            (t.coreAt c).rx = k.rx.erase f ∧ (s.die.flog.length < 32 → ∃ e ∈ t.die.flog, e.src = 0 ∧ e.loc = c.toNat ∧ e.st = St.WIN_DENIED) ∧
            (r.toRead ≠ [] → (t.coreAt c).reg 0x6050 = BitVec.ofNat 32 (put 1 31 + put n 16 + St.WIN_DENIED.toNat)) ∧
            ∃ r', ((t.coreAt c).chan n).run = some r' ∧ r'.reading = r.reading.filter (fun y => y.tag != m.tag) ∧ r'.bad = r.bad ∧
              ∀ i, i < m.lines → tget [] r'.got (m.first + i) = List.replicate 64 0))) ∧
      (∀ f, k.rx.find? pickAck = some f → f.h.sep % 4 = n → r.reading.find? (fun m => w.answers f.h (f.word 1) m.tag m.dest) = none →
        (∀ x, r.acks.find? (fun x => w.answers f.h (f.word 1) x.1 x.2) = some x → fld (f.word 0) 15 0 = 0 → exec (.dmaWriteAck c) s =
          .next (s.withCore c (put_ { k with rx := k.rx.erase f } (fun r : Run => { r with acks := r.acks.erase x })))) ∧
        (r.acks.find? (fun x => w.answers f.h (f.word 1) x.1 x.2) = none →
          exec (.dmaWriteAck c) s = .next (s.withCore c { k with rx := k.rx.erase f })))) ∧
    (k.rx.find? pick = none → same (exec (.dmaReadResponse c) s)) ∧
    (k.rx.find? pickAck = none → same (exec (.dmaWriteAck c) s))

/-- DGO starts a transfer; its requests, responses and end. -/
def Obligations.Transfers : Prop :=
  Claims.TransfersStart ∧ Claims.TransferTraffic

/-! ### Synchronisation -/

/-- R271, R276, R277: the parts of one cycle at one semaphore: its grants come before the sum of its signals, in whatever order they reach it; a
signal leaves the value that grants of its cycle are tested against and the value that a register read of it returns; of two signals the
record kept comes first in the order of R277; a core of the Annex wraps at 14 bits, wrap mode at 16, and saturate mode holds at 65,535; the
example of R276; serial-number comparison of two values within half the range is their order. -/
def Claims.SemaphoreCycle : Prop :=
  (∀ (s : Sem) (annex wrap : Bool) (cyc n : Nat) (l : LSig),
    let t := s.signal annex wrap cyc n l
    t.grantable cyc = s.grantable cyc ∧ t.before cyc = s.before cyc ∧ t.grantable (cyc + 1) = t.value ∧
    (s.at_ ≠ some cyc → t.value = semSum annex wrap s.value n ∧ t.nsig = 1 ∧ t.lsig = some l)) ∧
  (∀ (s : Sem) (annex wrap : Bool) (cyc n n' : Nat) (l l' : LSig), s.at_ ≠ some cyc →
    let t := (s.signal annex wrap cyc n l).signal annex wrap cyc n' l'
    t.lsig = some (if l.key ≤ l'.key then l else l') ∧ t.nsig = 2 ∧ t.value = semSum annex wrap s.value (n + n')) ∧
  (∀ (s : Sem) (annex wrap : Bool) (cyc n m : Nat) (l : LSig), s.initAt ≠ some cyc →
    ((s.signal annex wrap cyc n l).take annex wrap cyc m).value = ((s.take annex wrap cyc m).signal annex wrap cyc n l).value ∧
    (s.take annex wrap cyc m).grantable cyc = s.grantable cyc - m) ∧
  (∀ v n : Nat, (∀ wrap, semSum true wrap v n = (v + n) % 2 ^ 14) ∧ semSum false true v n = (v + n) % 2 ^ 16 ∧
    semSum false false v n = min 65535 (v + n)) ∧
  (∀ (wrap : Bool) (cyc : Nat) (l l' : LSig),
    let t := ({ Sem.reset with value := 5 }.take false wrap cyc 3).take false wrap cyc 2
    ({ Sem.reset with value := 5 }.take false wrap cyc 3).grantable cyc = 2 ∧
    ((t.signal false wrap cyc 4 l).signal false wrap cyc 1 l').value = 5) ∧
  (∀ w a n : Nat, 0 < w → atOrAfter w a ((a + n) % 2 ^ w) = decide (n % 2 ^ w < 2 ^ (w - 1)))

/-- R272, R274, R275, R278: a local SWAIT that holds is granted, subtracting THRESH under CONS and writing OK under SEN; one that does not waits,
with its timeout from this cycle; one on an orphaned semaphore ends with ORPHANED. A remote SWAIT sends its message and waits for the reply. -/
def Claims.Waits : Prop :=
  ∀ (s : State) (c : CoreCode) (ctx pc : Nat) (x : BitVec 64), ctx < 4 → s.Runs c ctx pc x 0x11 →
    let w := s.issuedWk c ctx pc x
    let k := w.c
    let q := queueOf x
    let e := (s.coreAt c).entry ctx pc x
    let now := s.die.cyc
    let thresh := fld x 28 13
    let limit := if bit x 10 then (k.sreg ctx (fld x 9 6)).toNat else 0
    let ends (y : Core) (st : Status) : Core := (y.setS now (now + 1) ctx (fld x 4 1) (st.setWidth 32)).ended
    (q = 0 ∨ k.queueDone q ≤ now) →
    (fld x 54 53 = 0 → (k.annex = true → thresh ≤ 16383) → ∀ p, k.semPhys ctx (fld x 34 29) = some p →
      let g := (k.sem p).grantable now
      let holds : Prop := if bit x 11 = true then atOrAfter (if k.annex then 14 else 16) thresh g = true else thresh ≤ g
      let taken : Core := if bit x 12 then
        { k with sems := tmod .reset k.sems p (fun y : Sem => y.take k.annex (bit (s.die.reg 0x40000) 0) now thresh) } else k
      ((k.sem p).orph = false → holds → exec (.swait c) s = .next (s.withCore c (if bit x 5 then ends taken St.OK else taken.ended))) ∧
      ((k.sem p).orph = false → ¬ holds → exec (.swait c) s = .next (s.withCore c
        (k.holding q { e with headAt := some now, done := limit }))) ∧
      ((k.sem p).orph = true → bit x 5 = true → exec (.swait c) s = .next (s.withCore c
        (ends (k.mark now 0xD200 (BitVec.ofNat 32 (put p 16 + St.ORPHANED.toNat))) St.ORPHANED))) ∧
      ((k.sem p).orph = true → bit x 5 = false → Answers (exec (.swait c) s) (fun t => s.Faulted t c ctx q pc St.ORPHANED))) ∧
    (fld x 54 53 = 0 → k.annex = true → 16383 < thresh → Answers (exec (.swait c) s) (fun t => s.Faulted t c ctx q pc St.ANNEX_RANGE)) ∧
    (fld x 54 53 = 0 → k.annex = false → k.semPhys ctx (fld x 34 29) = none → Answers (exec (.swait c) s) (fun t =>
      s.Faulted t c ctx q pc St.SEM_UNMAPPED)) ∧
    (fld x 54 53 ≠ 0 → ∀ h, w.singleHdr 0 3 (w.remTarget e).1 (w.remTarget e).2 0 0 = some h → exec (.swait c) s = .next (s.withCore c
      ({ k with
        hall := k.hall ++ [Flit.mk' h [syncWord0 2 (fld x 36 35) (fld x 34 29) thresh (bit x 12) (bit x 11) q, syncWord1 s.die.addr 0 limit]]
        hallIn := k.hallIn + 1 }.holding q { e with started := true, addr := targetKey (w.remTarget e) })))

/-- R275, R276: a wait that is not granted in the cycle in which its timeout expires ends with SEM_TIMEOUT, counted: a remote one is answered
and its entry is free, a local one writes its status or faults its context. Before that cycle nothing happens. -/
def Claims.WaitTimeouts : Prop :=
  ∀ (s : State) (c : CoreCode), s.die.coreOn c.toNat = true → (∀ ch, ch < 4 → ((s.coreAt c).chan ch).run = none) →
    let k := s.coreAt c
    let now := s.die.cyc
    (∀ i : Fin 16, k.Idle → k.NoGrant now →
      ((∀ r n, k.rwait i.val = some r → r.limit = some n → now < n) → exec (.semWaitTimeout c (.remote i)) s = .next (s.withCore c k)) ∧
      (∀ r n, k.rwait i.val = some r → r.limit = some n → n ≤ now → r.sdie = s.die.addr →
        let y := { k with rwaits := tset none k.rwaits i.val none }.bump now 0xD20C 1
        exec (.semWaitTimeout c (.remote i)) s = .next (s.withCore c { y with
          hallIn := k.hallIn + 1
          hall := k.hall ++ [Flit.mk' ⟨0, 3, true, false, r.score.toNat, 0, c.toNat, 0, 0, 0⟩
            [syncWord0 3 0 0 0 false false r.tag, syncWord1 s.die.addr St.SEM_TIMEOUT 0]] }))) ∧
    (∀ (q : Fin 6) (e : QEntry) (p n : Nat), k.queues = (if q.val = 0 then [] else [(q.val, [e])]) → k.sync0 = (if q.val = 0 then some e else none) →
      opc e.word = 0x11 → fld e.word 54 53 = 0 → (k.annex = true → fld e.word 28 13 ≤ 16383) → k.semPhys e.ctx (fld e.word 34 29) = some p →
      (k.sem p).orph = false → waitHolds k.annex (bit e.word 11) (fld e.word 28 13) ((k.sem p).grantable now) = false →
      (s.wk c).preempting e.ctx = false → e.headAt = some n → 0 < e.done →
      (now < n + e.done → exec (.semWaitTimeout c (.queue q)) s = .next (s.withCore c k)) ∧
      (n + e.done ≤ now → bit e.word 5 = true → Answers (exec (.semWaitTimeout c (.queue q)) s) (fun t =>
        (t.coreAt c).sreg e.ctx (fld e.word 4 1) = St.SEM_TIMEOUT.setWidth 32 ∧ (e.ctx < 4 → (t.coreAt c).reg 0xD20C = satAdd32 (k.reg 0xD20C) 1) ∧
        (t.coreAt c).queues = [] ∧ (t.coreAt c).sync0 = none ∧ (t.coreAt c).sems = k.sems ∧ (t.coreAt c).ctxs = k.ctxs)) ∧
      (n + e.done ≤ now → bit e.word 5 = false → e.ctx < 4 → Answers (exec (.semWaitTimeout c (.queue q)) s) (fun t =>
        s.Faulted t c e.ctx q.val e.pc St.SEM_TIMEOUT)))

/-- One cycle at a semaphore; SWAIT and the timeouts of waits. -/
def Obligations.SemaphoreWaits : Prop :=
  Claims.SemaphoreCycle ∧ Claims.Waits ∧ Claims.WaitTimeouts

/-- R271, R272, R274: a local SSIG adds N to its context's semaphore, modulo 2¹⁴ on an Annex core, modulo 2¹⁶ in wrap mode; in saturate mode a
value past 65,535 holds there, and SATF, the count, the record, the dirty span and the report follow. A signal of an orphaned semaphore
is dropped and counted, one of an unmapped identifier refused. A remote SSIG sends its message and waits for its admission. -/
def Claims.Signals : Prop :=
  ∀ (s : State) (c : CoreCode) (ctx pc : Nat) (x : BitVec 64), ctx < 4 → s.Runs c ctx pc x 0x10 →
    let w := s.issuedWk c ctx pc x
    let k := w.c
    let q := queueOf x
    let e := (s.coreAt c).entry ctx pc x
    let now := s.die.cyc
    let n := fld x 28 13
    let ls : LSig := ⟨0, s.die.addr, c, s.die.ts⟩
    (q = 0 ∨ k.queueDone q ≤ now) →
    (fld x 54 53 = 0 →
      (k.semPhys ctx (fld x 34 29) = none → Answers (exec (.ssig c) s) (fun t => s.Faulted t c ctx q pc St.SEM_UNMAPPED ∧
        (t.coreAt c).reg 0xD200 = BitVec.ofNat 32 (put 1 31 + St.SEM_UNMAPPED.toNat))) ∧
      (∀ p, k.semPhys ctx (fld x 34 29) = some p → k.NoGrant now →
        let wrap := bit (s.die.reg 0x40000) 0
        let y := (k.sem p).signal k.annex wrap now n ls
        let sat : Prop := k.annex = false ∧ wrap = false ∧ (k.sem p).saturates now n = true
        (((k.sem p).orph = true ∨ (k.sem p).initAt = some now) → exec (.ssig c) s = .next (s.withCore c (k.bump now 0xD208 1).ended)) ∧
        ((k.sem p).orph = false → (k.sem p).initAt ≠ some now →
          (¬ sat → exec (.ssig c) s = .next (s.withCore c { k with sems := tset .reset k.sems p y }.ended)) ∧
          ((k.sem p).at_ ≠ some now → y.value = semSum k.annex wrap (k.sem p).value n ∧
            ((k.sem p).saturates now n = true ↔ (k.sem p).value ≤ 65535 ∧ 65535 < (k.sem p).value + n)) ∧
          (sat → Answers (exec (.ssig c) s) (fun t =>
            ((t.coreAt c).sem p).value = 65535 ∧ ((t.coreAt c).sem p).satf = true ∧ (t.coreAt c).reg 0xD204 = satAdd32 (k.reg 0xD204) 1 ∧
            (t.coreAt c).reg 0xD200 = BitVec.ofNat 32 (put 1 31 + put p 16 + St.SEM_SAT.toNat) ∧ (t.coreAt c).ctxs = k.ctxs ∧
            (s.die.flog.length < 32 → ∃ e ∈ t.die.flog, e.sev = 1 ∧ e.src = 0 ∧ e.loc = c.toNat ∧ e.st = St.SEM_SAT)))))) ∧
    (fld x 54 53 ≠ 0 → ∀ h, w.singleHdr 0 3 (w.remTarget e).1 (w.remTarget e).2 0 0 = some h → exec (.ssig c) s = .next (s.withCore c
      ({ k with hall := k.hall ++ [Flit.mk' h [syncWord0 1 (fld x 36 35) (fld x 34 29) n false false q, syncWord1 s.die.addr 0 0]]
                hallIn := k.hallIn + 1 }.holding q { e with started := true, done := k.hallIn + 1 })))

/-- R193, R270, R273, R276: SEM_MAP maps an identifier while its context does not run, and refuses a semaphore that is mapped already or does not
exist; a Service write of SEM_VAL sets a value, clears SATF and ORPH, and is recorded as the requester's. -/
def Claims.SemaphoreWrites : Prop :=
  ∀ (s : State) (c : CoreCode) (v : Word), s.die.coreOn c.toNat = true →
    let k := s.coreAt c
    let err (p : Nat) (st : Status) : Core := k.mark s.die.cyc 0xD200 (BitVec.ofNat 32 (put p 16 + st.toNat))
    (∀ (ctx : Fin 4) (id : Fin 64),
      let p := fld v 5 0
      let off := 0xC000 + 0x100 * ctx.val + 4 * id.val
      let taken : Prop := ∃ ctx' id', ctx' < 4 ∧ id' < 64 ∧ (ctx' ≠ ctx.val ∨ id' ≠ id.val) ∧ k.semPhys ctx' id' = some p
      let own : Prop := k.semPhys ctx.val id.val = some p
      (k.ctxBusy ctx.val = true → exec (.semMapWrite c ctx id v) s = .next (s.withCore c (err p St.CTX_STATE))) ∧
      (k.ctxBusy ctx.val = false → bit v 31 = false → exec (.semMapWrite c ctx id v) s = .next (s.withCore c (k.setReg off (v &&& 0x8000003F)))) ∧
      (k.ctxBusy ctx.val = false → bit v 31 = true → p < 48 → ¬ taken → exec (.semMapWrite c ctx id v) s =
        .next (s.withCore c (k.setReg off (v &&& 0x8000003F)))) ∧
      (k.ctxBusy ctx.val = false → bit v 31 = true → (48 ≤ p ∨ (taken ∧ ¬ own)) → exec (.semMapWrite c ctx id v) s =
        .next (s.withCore c (err p St.SEM_MAP)))) ∧
    (∀ (p : Fin 48) (rdie : DieAddr),
      (∀ o, k.semOwner p.val = some o → k.ctxBusy o.1 = true → exec (.semValWrite c p v rdie) s = .next (s.withCore c (err p.val St.CTX_STATE))) ∧
      ((∀ o, k.semOwner p.val = some o → k.ctxBusy o.1 = false) → (k.sem p.val).at_ ≠ some s.die.cyc →
        exec (.semValWrite c p v rdie) s = .next (s.withCore c { k with
          sems := tset .reset k.sems p.val ⟨fld v 15 0 % 2 ^ (if k.annex then 14 else 16), false, false, some ⟨3, rdie, 0, s.die.ts⟩,
            some s.die.cyc, (k.sem p.val).value, 0, 0, 0, some s.die.cyc⟩ })))

/-- R273, R276, R279, R283: SINIT sets a semaphore and clears SATF and ORPH; WSET sets a work counter for its context; WTAKE takes K indices, or
0xFFFF_FFFF past the limit, and is refused on a counter of another context; SBAR arrives at its channel once in a phase. -/
def Claims.CountersAndBarriers : Prop :=
  ∀ (s : State) (c : CoreCode) (ctx pc : Nat) (x : BitVec 64), ctx < 4 →
    let w := s.issuedWk c ctx pc x
    let k := w.c
    let q := queueOf x
    let e := (s.coreAt c).entry ctx pc x
    let now := s.die.cyc
    (q = 0 ∨ k.queueDone q ≤ now) →
    (s.Runs c ctx pc x 0x12 →
      (k.semPhys ctx (fld x 54 49) = none → Answers (exec (.sinit c) s) (fun t => s.Faulted t c ctx q pc St.SEM_UNMAPPED)) ∧
      (∀ p, k.semPhys ctx (fld x 54 49) = some p → k.NoGrant now → (k.sem p).at_ ≠ some now → exec (.sinit c) s = .next (s.withCore c
        { k with sems := tset .reset k.sems p ⟨fld x 48 33 % 2 ^ (if k.annex then 14 else 16), false, false, some ⟨0, s.die.addr, c, s.die.ts⟩,
          some now, (k.sem p).value, 0, 0, 0, some now⟩ }.ended))) ∧
    (s.Runs c ctx pc x 0x13 →
      let n := fld x 34 33
      let v := (k.reg (0xD104 + 16 * n)).toNat
      let lim := (k.reg (0xD108 + 16 * n)).toNat
      let gives (y : Core) (v : Word) : Prop := exec (.wtake c) s = .next (s.withCore c (y.setS now (now + 1) ctx (fld x 16 13) v).ended)
      let mine : Prop := bit (k.reg (0xD100 + 16 * n)) 31 = true ∧ fld (k.reg (0xD100 + 16 * n)) 1 0 = ctx
      let refused (st : Status) : Prop := Answers (exec (.wtake c) s) (fun t => s.Faulted t c ctx q pc st ∧
        (t.coreAt c).reg 0xD200 = BitVec.ofNat 32 (put 1 31 + put n 16 + st.toNat))
      (fld x 54 53 = 0 → tget false k.wcOrph n = false → mine → v < lim →
        gives (k.setReg (0xD104 + 16 * n) (BitVec.ofNat 32 (min (v + fld x 32 17) lim))) (BitVec.ofNat 32 v)) ∧
      (fld x 54 53 = 0 → tget false k.wcOrph n = false → mine → lim ≤ v → gives k 0xFFFFFFFF) ∧
      (fld x 54 53 = 0 → tget false k.wcOrph n = false → ¬ mine → refused St.WC_OFF) ∧
      (fld x 54 53 = 0 → tget false k.wcOrph n = true → refused St.ORPHANED) ∧
      (fld x 54 53 ≠ 0 → ∀ h, w.singleHdr 0 3 (w.remTarget e).1 (w.remTarget e).2 0 0 = some h → exec (.wtake c) s = .next (s.withCore c
        ({ k with hall := k.hall ++ [Flit.mk' h [syncWord0 4 (fld x 36 35) n 0 false false q, syncWord1 s.die.addr 0 (fld x 32 17)]]
                  hallIn := k.hallIn + 1 }.holding q { e with started := true, addr := targetKey (w.remTarget e) })))) ∧
    (s.Runs c ctx pc x 0x14 →
      let n := fld x 54 53
      exec (.wset c) s = .next (s.withCore c { ((k.setReg (0xD100 + 16 * n) (BitVec.ofNat 32 (put 1 31 + ctx))).setReg (0xD104 + 16 * n)
        (k.sreg ctx (fld x 52 49))).setReg (0xD108 + 16 * n) (k.sreg ctx (fld x 48 45)) with wcOrph := tset false k.wcOrph n false }.ended)) ∧
    (s.Runs c ctx pc x 0x15 →
      let ch := fld x 54 50
      ((ch = 31 ∨ bit (k.reg 0xD140) ch = false) → Answers (exec (.sbar c) s) (fun t => s.Faulted t c ctx q pc St.BAR_OFF)) ∧
      (ch ≠ 31 → bit (k.reg 0xD140) ch = true → tget false k.barArr ch = false → exec (.sbar c) s =
        .next (s.withCore c { k with barArr := tset false k.barArr ch true }.ended)) ∧
      (ch ≠ 31 → bit (k.reg 0xD140) ch = true → tget false k.barArr ch = true → Answers (exec (.sbar c) s) (fun t =>
        t.coreAt c = (k.mark now 0xD200 (BitVec.ofNat 32 St.BAR_TWICE.toNat)).ended ∧
        (s.die.flog.length < 32 → ∃ e ∈ t.die.flog, e.sev = 1 ∧ e.src = 0 ∧ e.loc = c.toNat ∧ e.st = St.BAR_TWICE))))

/-- SSIG, the writes of semaphores, work counters and barrier arrivals. -/
def Obligations.SemaphoreSignals : Prop :=
  Claims.Signals ∧ Claims.SemaphoreWrites ∧ Claims.CountersAndBarriers

/-- R273: SINIT sets the issuing context's semaphore to VALUE, of 14 bits on an Annex core, and clears its SATF and ORPH, on the issuing core
only; a Service write to SEM_VAL does the same for the owner while the owner is not RUNNING or DRAINING. It does so whatever waits are granted and
whatever signals come in the same cycle. -/
def Obligations.SemaphoresAreSet : Prop :=
  ∀ (s : State) (c : CoreCode),
    let set_ (t : State) (p v : Nat) : Prop := ((t.coreAt c).sem p).value = v % 2 ^ (if (s.coreAt c).annex then 14 else 16) ∧
      ((t.coreAt c).sem p).satf = false ∧ ((t.coreAt c).sem p).orph = false ∧ ∀ n, n ≠ c.toNat → t.die.core n = s.die.core n
    (∀ (ctx pc : Nat) (x : BitVec 64) (p : Nat), ctx < 4 → s.Runs c ctx pc x 0x12 →
      (queueOf x = 0 ∨ (s.issuedWk c ctx pc x).c.queueDone (queueOf x) ≤ s.die.cyc) → (s.coreAt c).semPhys ctx (fld x 54 49) = some p →
      Answers (exec (.sinit c) s) (fun t => set_ t p (fld x 48 33))) ∧
    (∀ (p : Fin 48) (v : Word) (rdie : DieAddr), s.die.coreOn c.toNat = true →
      (∀ o, (s.coreAt c).semOwner p.val = some o → (s.coreAt c).ctxBusy o.1 = false) →
      Answers (exec (.semValWrite c p v rdie) s) (fun t => set_ t p.val (fld v 15 0)))

/-- R275 to R280, R286: the messages of synchronisation as their target and their sender take them. A SIG signals the semaphore that its context
maps, and is dropped, counted and recorded where it maps none. A WAIT is answered at once where it holds or cannot hold, and takes the
lowest free entry otherwise, or is answered SEM_WTFULL. A TAKE is answered with the index or the status of its claim. A reply ends the
wait or the claim at the head of the queue that its TAG names; one to a wait or a claim that has ended is discarded, the wait's counted. -/
def Claims.RemoteSynchronisation : Prop :=
  ∀ (s : State) (c : CoreCode), s.die.coreOn c.toNat = true →
    let k := s.coreAt c
    let now := s.die.cyc
    let pick (mop : Nat) : Option Flit := k.rx.find? (fun f => f.h.vc == 0 && f.h.kind == 3 && fld (f.word 0) 63 60 == mop)
    let gone (f : Flit) : Core := { k with rx := k.rx.erase f }
    let a (f : Flit) : BitVec 64 := f.word 0
    let home (f : Flit) : Prop := fld (f.word 1) 63 48 = s.die.addr.toNat
    let reply (f : Flit) (y : Core) (mop : Nat) (st : Status) (v : Nat) : Core := { y with
      hallIn := y.hallIn + 1
      hall := y.hall ++ [Flit.mk' ⟨0, 3, true, false, f.h.src, 0, c.toNat, 0, 0, 0⟩
        [syncWord0 mop 0 0 0 false false (fld (a f) 33 30), syncWord1 s.die.addr st v]] }
    let same (o : Host.Outcome State Fault Refusal) : Prop := o = .next (s.withCore c k)
    (pick 1 = none → same (exec (.sig c) s)) ∧ (pick 2 = none → same (exec (.wait c) s)) ∧ (pick 3 = none → same (exec (.waitReply c) s)) ∧
    (pick 4 = none → same (exec (.take c) s)) ∧ (pick 5 = none → same (exec (.takeReply c) s)) ∧
    (∀ f, pick 1 = some f → k.NoGrant now →
      let sender : LSig := ⟨if BitVec.ofNat 16 (fld (f.word 1) 63 48) = s.die.addr ∧ BitVec.ofNat 12 f.h.src = c then 0 else 1,
        BitVec.ofNat 16 (fld (f.word 1) 63 48), BitVec.ofNat 12 f.h.src, s.die.ts⟩
      (k.semPhys (fld (a f) 59 58) (fld (a f) 57 52) = none → Answers (exec (.sig c) s) (fun t =>
        (t.coreAt c).rx = k.rx.erase f ∧ (t.coreAt c).sems = k.sems ∧ (t.coreAt c).reg 0xD208 = satAdd32 (k.reg 0xD208) 1 ∧
        (t.coreAt c).reg 0xD200 = BitVec.ofNat 32 (put 1 31 + St.SEM_UNMAPPED.toNat) ∧
        (s.die.flog.length < 32 → ∃ e ∈ t.die.flog, e.src = 0 ∧ e.loc = c.toNat ∧ e.st = St.SEM_UNMAPPED))) ∧
      (∀ p, k.semPhys (fld (a f) 59 58) (fld (a f) 57 52) = some p → (k.sem p).orph = false →
        let n := fld (a f) 51 36
        let wrap := bit (s.die.reg 0x40000) 0
        let y := (k.sem p).signal k.annex wrap now n sender
        ((k.sem p).initAt ≠ some now → (k.annex = true ∨ wrap = true ∨ (k.sem p).saturates now n = false) →
          exec (.sig c) s = .next (s.withCore c { gone f with sems := tset .reset k.sems p y })) ∧
        ((k.sem p).at_ ≠ some now → y.value = semSum k.annex wrap (k.sem p).value n) ∧
        ((k.sem p).initAt = some now → exec (.sig c) s = .next (s.withCore c ((gone f).bump now 0xD208 1)))) ∧
      (∀ p, k.semPhys (fld (a f) 59 58) (fld (a f) 57 52) = some p → (k.sem p).orph = true → Answers (exec (.sig c) s) (fun t =>
        (t.coreAt c).rx = k.rx.erase f ∧ (t.coreAt c).sems = k.sems ∧ (t.coreAt c).reg 0xD208 = satAdd32 (k.reg 0xD208) 1 ∧
        (t.coreAt c).reg 0xD200 = BitVec.ofNat 32 (put 1 31 + put p 16 + St.ORPHANED.toNat) ∧
        (s.die.flog.length < 32 → ∃ e ∈ t.die.flog, e.src = 0 ∧ e.loc = c.toNat ∧ e.st = St.ORPHANED)))) ∧
    (∀ f, pick 2 = some f → home f →
      let thresh := fld (a f) 51 36
      let gives (y : Core) : Prop := exec (.wait c) s = .next (s.withCore c y)
      (k.semPhys (fld (a f) 59 58) (fld (a f) 57 52) = none → gives (reply f (gone f) 3 St.SEM_UNMAPPED 0)) ∧
      (∀ p, k.semPhys (fld (a f) 59 58) (fld (a f) 57 52) = some p →
        let g := (k.sem p).grantable now
        let holds : Bool := waitHolds k.annex (bit (a f) 34) thresh g
        let open_ : Prop := (k.annex = true → thresh ≤ 16383) ∧ (k.sem p).orph = false
        let row : RWait := ⟨bit (a f) 35, bit (a f) 34, p, fld (a f) 33 30, thresh, s.die.addr, BitVec.ofNat 12 f.h.src,
          if fld (f.word 1) 31 0 = 0 then none else some (now + fld (f.word 1) 31 0)⟩
        (k.annex = true → 16383 < thresh → gives (reply f (gone f) 3 St.ANNEX_RANGE 0)) ∧
        ((k.annex = true → thresh ≤ 16383) → (k.sem p).orph = true → gives (reply f (gone f) 3 St.ORPHANED 0)) ∧
        (open_ → holds = true → gives (reply f (if bit (a f) 35 then { gone f with
          sems := tmod .reset k.sems p (fun y : Sem => y.take k.annex (bit (s.die.reg 0x40000) 0) now thresh) } else gone f) 3 St.OK 0)) ∧
        (open_ → holds = false → (∀ i, i < 16 → k.rwait i ≠ none) → gives (reply f (gone f) 3 St.SEM_WTFULL 0)) ∧
        (∀ i, open_ → holds = false → i < 16 → k.rwait i = none → (∀ j, j < i → k.rwait j ≠ none) →
          gives { gone f with rwaits := tset none k.rwaits i (some row) }))) ∧
    (∀ f, pick 4 = some f → home f →
      let n := fld (a f) 53 52
      let v := (k.reg (0xD104 + 16 * n)).toNat
      let lim := (k.reg (0xD108 + 16 * n)).toNat
      let mine : Prop := tget false k.wcOrph n = false ∧ bit (k.reg (0xD100 + 16 * n)) 31 = true ∧ fld (k.reg (0xD100 + 16 * n)) 1 0 = fld (a f) 59 58
      (mine → v < lim → exec (.take c) s = .next (s.withCore c (reply f
        ((gone f).setReg (0xD104 + 16 * n) (BitVec.ofNat 32 (min (v + fld (f.word 1) 31 0) lim))) 5 St.OK v))) ∧
      (mine → lim ≤ v → exec (.take c) s = .next (s.withCore c (reply f (gone f) 5 St.OK 0xFFFFFFFF))) ∧
      (tget false k.wcOrph n = false → ¬ mine → exec (.take c) s = .next (s.withCore c (reply f
        ((gone f).mark now 0xD200 (BitVec.ofNat 32 (put n 16 + St.WC_OFF.toNat))) 5 St.WC_OFF 0))) ∧
      (tget false k.wcOrph n = true → exec (.take c) s = .next (s.withCore c (reply f
        ((gone f).mark now 0xD200 (BitVec.ofNat 32 (put n 16 + St.ORPHANED.toNat))) 5 St.ORPHANED 0)))) ∧
    (∀ f, pick 3 = some f →
      let q := fld (a f) 33 30
      let st : Status := BitVec.ofNat 16 (fld (f.word 1) 47 32)
      let key : Nat × Int := (q, targetKey (BitVec.ofNat 16 (fld (f.word 1) 63 48), f.h.src))
      (k.stale.contains key = true → exec (.waitReply c) s = .next (s.withCore c
        ({ gone f with stale := k.stale.erase key }.bump now 0xD208 1))) ∧
      (k.stale.contains key = false →
        (k.awaiting q 0x11 = none → exec (.waitReply c) s = .next (s.withCore c (gone f))) ∧
        (∀ e es, q ≠ 0 → k.queue q = e :: es → k.awaiting q 0x11 = some e → bit e.word 5 = true → st = St.OK → exec (.waitReply c) s =
          .next (s.withCore c { (gone f).setS now (now + 1) e.ctx (fld e.word 4 1) 0 with queues := tset [] k.queues q es })) ∧
        (∀ e, q = 0 → k.awaiting 0 0x11 = some e → bit e.word 5 = true → st = St.OK → exec (.waitReply c) s =
          .next (s.withCore c { (gone f).setS now (now + 1) e.ctx (fld e.word 4 1) 0 with sync0 := none })) ∧
        (∀ e, k.awaiting q 0x11 = some e → bit e.word 5 = false → st ≠ St.OK → e.ctx < 4 →
          Answers (exec (.waitReply c) s) (fun t => s.Faulted t c e.ctx q e.pc st)))) ∧
    (∀ f, pick 5 = some f →
      let q := fld (a f) 33 30
      let st : Status := BitVec.ofNat 16 (fld (f.word 1) 47 32)
      let key : Nat × Int := (q + 8, targetKey (BitVec.ofNat 16 (fld (f.word 1) 63 48), f.h.src))
      (k.stale.contains key = true → exec (.takeReply c) s = .next (s.withCore c { gone f with stale := k.stale.erase key })) ∧
      (k.stale.contains key = false →
        (k.awaiting q 0x13 = none → exec (.takeReply c) s = .next (s.withCore c (gone f))) ∧
        (∀ e es, q ≠ 0 → k.queue q = e :: es → k.awaiting q 0x13 = some e → st = St.OK → exec (.takeReply c) s = .next (s.withCore c
          { (gone f).setS now (now + 1) e.ctx (fld e.word 16 13) (BitVec.ofNat 32 (fld (f.word 1) 31 0)) with queues := tset [] k.queues q es })) ∧
        (∀ e, q = 0 → k.awaiting 0 0x13 = some e → st = St.OK → exec (.takeReply c) s = .next (s.withCore c
          { (gone f).setS now (now + 1) e.ctx (fld e.word 16 13) (BitVec.ofNat 32 (fld (f.word 1) 31 0)) with sync0 := none })) ∧
        (∀ e, k.awaiting q 0x13 = some e → st ≠ St.OK → e.ctx < 4 →
          Answers (exec (.takeReply c) s) (fun t => s.Faulted t c e.ctx q e.pc st))))

/-- R282, R283, R287, R289: a channel with every arrival in is released, by its root at once and by another die once its parent has: every core
that takes part is signalled once and has its arrival cleared, GEN rises by 1, the release passes down and a phase starts. Another
die sends its arrival up first. A write of EN = 1 clears ORPH and starts a phase; a write while a context of the die runs is refused. -/
def Claims.Barriers : Prop :=
  ∀ (s : State) (ch : Fin 31), s.die.meshOn = true →
    let n := ch.val
    let ctl := s.die.reg (0x40100 + 16 * n)
    let stat := 0x4010C + 16 * n
    let on : Prop := bit ctl 31 = true ∧ bit (s.die.reg stat) 31 = false ∧ s.die.barFull n = true
    (¬ on → exec (.barrierRelease ch) s = .next s) ∧
    (on → (s.die.wide n = false ∨ bit ctl 28 = true ∨ (s.die.bar n).down.isSome = true) → Answers (exec (.barrierRelease ch) s) (fun t =>
      t.die.rf stat 15 0 = (s.die.rf stat 15 0 + 1) % 2 ^ 16 ∧ bit (t.die.reg stat) 30 = false ∧ t.die.bar n = .reset ∧
      (∀ c ∈ s.die.partakers n, tget false (t.coreAt c).barArr n = false) ∧
      (∀ c ∈ s.die.partakers n, ∀ p, (s.coreAt c).semPhys (fld ((s.coreAt c).reg (0xD180 + 4 * n)) 7 6) (fld ((s.coreAt c).reg (0xD180 + 4 * n)) 5 0) =
        some p → (s.coreAt c).NoGrant s.die.cyc → ((s.coreAt c).sem p).orph = false → ((s.coreAt c).sem p).initAt ≠ some s.die.cyc → (s.coreAt c).annex = false →
        (bit (s.die.reg 0x40000) 0 = true ∨ ((s.coreAt c).sem p).saturates s.die.cyc 1 = false) →
        (t.coreAt c).sem p = ((s.coreAt c).sem p).signal false (bit (s.die.reg 0x40000) 0) s.die.cyc 1 ⟨2, s.die.addr, c, s.die.ts⟩) ∧
      (∀ c, isCore c = true → BitVec.ofNat 12 c ∉ s.die.partakers n → t.die.core c = s.die.core c))) ∧
    (on → s.die.wide n = true → bit ctl 28 = false → (s.die.bar n).down = none → (s.die.bar n).up = true → exec (.barrierRelease ch) s = .next s) ∧
    (on → s.die.wide n = true → bit ctl 28 = false → (s.die.bar n).down = none → (s.die.bar n).up = false → Answers (exec (.barrierRelease ch) s)
      (fun t => t.die.bar n = { s.die.bar n with up := true } ∧ bit (t.die.reg stat) 30 = true ∧ t.die.cores = s.die.cores ∧
        (s.die.rf (0x81000 + 32 * fld ctl 27 22) 9 8 % 2 = 1 → t.die.mod (fld ctl 27 22) = (s.die.mod (fld ctl 27 22)).queueEvent 0 n))) ∧
    (∀ v : Word, s.die.anyBusy = true → exec (.barrierChannelEnable ch v) s = .next (s.withDie (s.die.portErr 0 0 St.CTX_STATE))) ∧
    (∀ v : Word, s.die.anyBusy = false → Answers (exec (.barrierChannelEnable ch v) s) (fun t => t.die.reg (0x40100 + 16 * n) = v &&& 0xFFC00000 ∧
      (bit v 31 = true → bit (t.die.reg stat) 31 = false ∧ t.die.bar n = .reset ∧ t.die.rf stat 15 0 = s.die.rf stat 15 0 ∧
        (∀ c : CoreCode, s.die.coreOn c.toNat = true → t.coreAt c = { s.coreAt c with barArr := tset false (s.coreAt c).barArr n false })) ∧
      (bit v 31 = false → t.die.cores = s.die.cores ∧ t.die.reg stat = s.die.reg stat)))

/-- The messages of synchronisation at their target and their sender; the barrier channels of the die. -/
def Obligations.RemoteSynchronisation : Prop :=
  Claims.RemoteSynchronisation ∧ Claims.Barriers

/-! ### Reset and bring-up -/

/-- R417, R418, R426, R534, R541, R542: PG_AON gives the outputs their reset levels; PORST_N released with PG_AON high starts phase ROM with the fuses and
the straps, a reserved flash mode read as 0, and a bad fuse check or SRAM test halts it; PORST_N asserted, or PG_AON or PG_CEL lost, resets
the die and its bus, and the loss of PG_AON the test access port too; another rail lost while PWR_EN is high halts the die. -/
def Claims.ResetsAndRails : Prop :=
  (∀ s : State, (s.die.boot.porst = true → exec .pgAonAssertion s = .next (s.withDie { s.die with pins := .reset })) ∧
    (s.die.boot.porst = false → exec .pgAonAssertion s = .next s)) ∧
  (∀ (s : State) (f : Fuses) (ok aonv : Bool) (mode : Fin 4),
    ((s.die.boot.porst = false ∨ s.die.pins.pwrEn = .z) → exec (.porstRelease f ok mode aonv) s = .next s) ∧
    (s.die.boot.porst = true → s.die.pins.pwrEn ≠ .z →
      (f.bad = false → ok = true → Answers (exec (.porstRelease f ok mode aonv) s) (fun t => t.die.boot = { s.die.boot with porst := false } ∧
        t.die.fuses = f ∧ t.die.pins = { s.die.pins with flReset := .high } ∧ t.die.phase = s.die.phase ∧
        t.die.reg 0x14000C = BitVec.ofNat 32 (put (b2n aonv) 2 + (if mode.val = 3 then 0 else mode.val)) ∧ bit (t.die.reg 0x200100) 0 = true ∧
        t.die.cores = s.die.cores ∧ t.die.flog = s.die.flog)) ∧
      (s.die.phase = 0 → f.bad = true → Answers (exec (.porstRelease f ok mode aonv) s) (fun t => s.HaltsWith t 0 St.FUSE_BAD)) ∧
      (s.die.phase = 0 → f.bad = false → ok = false → Answers (exec (.porstRelease f ok mode aonv) s) (fun t => s.HaltsWith t 0 St.CEL_SRAM)))) ∧
  (∀ s : State,
    let held (pins : Pins) : State := { s with die := { Die.reset with pins := pins }, bus := .reset }
    (s.die.pins.pwrEn ≠ .z → exec .porstAssert s = .next (held .reset) ∧ exec (.powerGoodFall 1) s = .next (held .reset)) ∧
    (s.die.pins.pwrEn = .z → exec .porstAssert s = .next (held .unpowered) ∧ exec (.powerGoodFall 1) s = .next (held .unpowered)) ∧
    exec (.powerGoodFall 0) s = .next { held .unpowered with tap := .reset } ∧
    (∀ rail : Fin 6, 2 ≤ rail.val →
      (s.die.pins.pwrEn = .high → s.die.phase ≠ 15 → Answers (exec (.powerGoodFall rail) s) (fun t => s.HaltsWith t s.die.phase St.PG_TIMEOUT)) ∧
      (s.die.pins.pwrEn ≠ .high → exec (.powerGoodFall rail) s = .next s)))

/-- R417, R420, R421, R425, R434, R539: the reference ends phase ROM or halts it. Phase FLASH reads the flash: no device halts it; the primary
copy that passes is taken up, the alternate of a device of 32 MiB or more when the primary fails, and the status of the copy that failed last
halts it otherwise; then the boot voltage goes to the regulator. Its acknowledgement raises PWR_EN, the third failure halts. Power good
with PWR_EN high ends phase POWER, phase FUSE halts on a grade that does not fit, and 5 ms without power good halt it. -/
def Claims.PowerUp : Prop :=
  ∀ s : State, s.die.boot.porst = false →
    (∀ present : Bool, s.die.phase ≠ 0 → exec (.referencePresent present) s = .next s) ∧
    (s.die.phase = 0 → Answers (exec (.referencePresent true) s) (fun t => s.Enters t 1 ∧ t.die.boot.refOk = true) ∧
      Answers (exec (.referencePresent false) s) (fun t => s.HaltsWith t 0 St.CLK_LOSS)) ∧
    (∀ f : FlashDev, s.die.phase ≠ 1 → exec (.flashImageRead f) s = .next s) ∧
    (∀ f : FlashDev, s.die.phase = 1 →
      let p := celCheck s.die.fuses f.primary
      let a := celCheck s.die.fuses f.alternate
      let takes (b : List Byte) (copy : Nat) : Prop := Answers (exec (.flashImageRead f) s) (fun t => s.Enters t 2 ∧ t.die.rf 0x140010 4 4 = copy ∧
        t.die.boot.opts = celOpts (b.take (leAt b 8 4)) ∧ t.die.meas 1 = celDigest (b.take (leAt b 8 4)) ∧ bit (t.die.reg 0x200100) 1 = true ∧
        t.die.reg 0x100024 = BitVec.ofNat 32 (s.die.voltage 0) ∧ (∃ dv, t.die.therm.step = .vout true 0 dv) ∧ t.die.pins = s.die.pins)
      (f.sfdp = false → Answers (exec (.flashImageRead f) s) (fun t => s.HaltsWith t 1 St.FLASH_NONE)) ∧
      (f.sfdp = true → p = St.OK → takes f.primary 0) ∧
      (f.sfdp = true → p ≠ St.OK → f.dens < 25 → Answers (exec (.flashImageRead f) s) (fun t => s.HaltsWith t 1 p)) ∧
      (f.sfdp = true → p ≠ St.OK → 25 ≤ f.dens → a = St.OK → takes f.alternate 1) ∧
      (f.sfdp = true → p ≠ St.OK → 25 ≤ f.dens → a ≠ St.OK → Answers (exec (.flashImageRead f) s) (fun t => s.HaltsWith t 1 a))) ∧
    (∀ up tries dv, s.die.phase = 2 → s.die.therm.step = .vout up tries dv →
      Answers (exec (.avsVoutAck true) s) (fun t => t.die.pins = { s.die.pins with pwrEn := .high } ∧ t.die.phase = 2 ∧ t.die.therm.step = .idle) ∧
      (tries < 2 → Answers (exec (.avsVoutAck false) s) (fun t => t.die = { s.die with therm := { s.die.therm with step := .vout true (tries + 1) dv } })) ∧
      (2 ≤ tries → Answers (exec (.avsVoutAck false) s) (fun t => s.HaltsWith t 2 St.AVS_ERR))) ∧
    ((s.die.phase ≠ 2 ∨ s.die.pins.pwrEn ≠ .high) → exec .powerGoodRise s = .next s) ∧
    (s.die.phase = 2 → s.die.pins.pwrEn = .high →
      (s.die.fuses.gradeOk = true → Answers (exec .powerGoodRise s) (fun t => s.Enters t 4 ∧ t.die.pins = s.die.pins)) ∧
      (s.die.fuses.gradeOk = false → Answers (exec .powerGoodRise s) (fun t => s.HaltsWith t 3 St.FUSE_BAD))) ∧
    ((s.die.phase ≠ 2 ∨ s.die.ts.toNat < s.die.boot.phaseTs + 500000) → exec .powerGoodTimeout s = .next s) ∧
    (s.die.phase = 2 → s.die.boot.phaseTs + 500000 ≤ s.die.ts.toNat → Answers (exec .powerGoodTimeout s) (fun t => s.HaltsWith t 2 St.PG_TIMEOUT))

/-- Reset, rails and the phases of power-up to the end of phase FUSE. -/
def Obligations.PowerUp : Prop :=
  Claims.ResetsAndRails ∧ Claims.PowerUp

/-- R431, R432: a region row with one bad core shifts past it; with none its spare is free, unless REPL4 gives its place to a core that presents
N = 4; with two it cannot be served. The grade keeps 48 rows, the lowest 45, or three whole bands. -/
def Claims.RepairRules : Prop :=
  (∀ (repl4 : Bool) (badCore : List Nat) (badCol : List (Nat × Nat)) (row s : Nat),
    let bad (p : Nat) : Prop := 64 * row + 13 * s + p ∈ badCore
    (∀ p q, p < 13 → q < 13 → p ≠ q → bad p → bad q → repairRow repl4 badCore badCol row s = none) ∧
    (∀ p, p < 13 → bad p → (∀ q, q < 13 → q ≠ p → ¬ bad q) → repairRow repl4 badCore badCol row s = some (p, false)) ∧
    ((∀ p, p < 13 → ¬ bad p) → repl4 = false → repairRow repl4 badCore badCol row s = some (12, true)) ∧
    (∀ p, (∀ p, p < 13 → ¬ bad p) → repl4 = true → p < 12 → (∃ n, (64 * row + 13 * s + p, n) ∈ badCol) →
      (∀ q, q < p → ∀ n, (64 * row + 13 * s + q, n) ∉ badCol) → (∀ n, (64 * row + 13 * s + 12, n) ∉ badCol) →
      repairRow repl4 badCore badCol row s = some (p, false))) ∧
  (∀ (fused : Nat) (present : List Nat), present.Nodup → (∀ r ∈ present, r < 48) → present.Pairwise (· < ·) →
    let g := chooseGrade fused present
    let kept := present.filter (fun r => !g.2.contains r)
    g.1 ≤ 3 ∧ (fused ≤ 2 → fused ≤ g.1) ∧ (g.1 = 0 → kept.length = 48) ∧ (g.1 = 1 → kept.length = 45 ∧ kept = present.take 45) ∧
      (g.1 = 2 → kept.length = 36 ∧ ∃ b, b < 4 ∧ ∀ r, r < 48 → (r ∈ kept ↔ r / 12 ≠ b)) ∧
      (g.1 = 3 → kept = present ∧ (present.length < 45 ∨ 2 ≤ fused) ∧ ∀ b, b < 4 → ∃ r, r < 48 ∧ r / 12 ≠ b ∧ r ∉ present))

/-- R417, R428, R429, R431 to R433, R435 to R437: self-test turns every region on, keeps its findings and halts on one that nothing replaces. Repair
writes the grade, the rows and each region row's pass-through and spare. Link training starts every module of the grade that is not bad.
Then the firmware starts on every core of a present row; at FWTIME, when every core has passed, or with the check off, the cores are
reset and phase IDLE follows; a core that fails is bad, and its row absent when its region row has no free spare. A step in another phase, or before its time, changes nothing. -/
def Claims.TestAndRepair : Prop :=
  ∀ s : State, s.die.boot.porst = false →
    (s.die.phase ≠ 4 → ∀ finds fatal, exec (.selfTest finds fatal) s = .next s) ∧
    (s.die.phase = 4 → ∀ finds, Answers (exec (.selfTest finds true) s) (fun t => s.HaltsWith t 4 St.BIST_FATAL) ∧
      Answers (exec (.selfTest finds false) s) (fun t => s.Enters t 5 ∧ t.die.found = finds ∧ t.die.reg 0x100030 = 0xFFFF ∧
        ∀ r, r < 16 → t.die.regionOn r = true)) ∧
    (s.die.phase ≠ 5 → exec .repair s = .next s) ∧
    (s.die.phase = 5 →
      let all := s.die.fuses.defects ++ s.die.found.filter (fun f => f.kind ≤ 2)
      let units := badUnits all
      let badCore := (units.filter (fun u => u.1 = 0)).map (fun u => 64 * u.2.1 + u.2.2.1)
      let badCol := (units.filter (fun u => u.1 = 1)).map (fun u => (64 * u.2.1 + u.2.2.1, u.2.2.2))
      let fix (rr : Nat) : Option (Nat × Bool) :=
        if s.die.fuses.absent.contains (rr / 4) then none else repairRow (bit s.die.boot.opts 4) badCore badCol (rr / 4) (rr % 4)
      let served := (List.range 48).filter (fun r => (List.range 4).all (fun j => (fix (4 * r + j)).isSome))
      let g := chooseGrade s.die.fuses.grade served
      Answers (exec .repair s) (fun t => s.Enters t 7 ∧ t.die.rf 0x140000 11 8 = g.1 ∧ t.die.grid.badCore = badCore ∧
        (∀ r, r < 48 → t.die.rowPresent r = (served.contains r && !g.2.contains r)) ∧
        (∀ rr, rr < 192 → t.die.rowPresent (rr / 4) = true → ∀ b free, fix rr = some (b, free) → t.die.passOf rr = b ∧ t.die.freeOf rr = free))) ∧
    ((s.die.phase ≠ 7 ∨ ∃ m, m < 48 ∧ s.die.modState m ≠ 0) → exec .linkTraining s = .next s) ∧
    (s.die.phase = 7 → (∀ m, m < 48 → s.die.modState m = 0) → Answers (exec .linkTraining s) (fun t => t.die.phase = 7 ∧ ∀ m, m < 48 →
      t.die.rf (modOff m 0) 2 0 = fld s.die.boot.opts 10 8 ∧ t.die.rf (modOff m 0) 6 4 = fld s.die.boot.opts 14 12 ∧
      t.die.modState m = (if s.die.smallPantry = true ∧ 9 ≤ m % 12 then 0
        else if (s.die.found ++ s.die.fuses.defects).any (Finding.of 2 0 m 0) then 5 else 2))) ∧
    ((s.die.phase ≠ 7 ∨ (∃ m, m < 48 ∧ s.die.modState m = 2) ∨ ∀ m, m < 48 → s.die.modState m = 0) → exec .coreFirmware s = .next s) ∧
    (s.die.phase = 7 → (∀ m, m < 48 → s.die.modState m ≠ 2) → (∃ m, m < 48 ∧ s.die.modState m ≠ 0) →
      Answers (exec .coreFirmware s) (fun t => s.Enters t 8 ∧ t.die.boot.fwAt = s.die.cyc ∧ ∀ c, isCore c = true →
        (s.die.rowPresent (c / 64) = true → ((t.die.core c).ctx 0).state = .running ∧
          (t.die.core c).reg 0x2000 = BitVec.ofNat 32 (put 1 31 + s.die.boot.core0) ∧
          (t.die.core c).reg 0x108 = BitVec.ofNat 32 (put s.die.boot.limit 16 + s.die.boot.core0) ∧
          ∀ i, i < s.die.boot.words.length → s.die.boot.core0 + i < 4096 →
            (t.die.core c).iword (s.die.boot.core0 + i) = nth 0 s.die.boot.words i) ∧
        (s.die.rowPresent (c / 64) = false → t.die.core c = .reset))) ∧
    ((s.die.phase ≠ 8 ∨ s.die.cyc < s.die.boot.fwAt + s.die.boot.fwtime) → exec .firmwareCheck s = .next s) ∧
    (s.die.phase = 8 → s.die.boot.fwAt + s.die.boot.fwtime ≤ s.die.cyc →
      let passed (c : Nat) : Prop := ((s.die.core c).ctx 0).state = .stopped ∧ (s.die.core c).sreg 0 0 = s.die.boot.expect
      ((bit s.die.boot.opts 6 = false ∨ (s.die.boot.done = [] ∧ ∀ e ∈ s.die.cores, passed e.1) ∨
        (s.die.boot.done ≠ [] ∧ ∀ c ∈ s.die.boot.done, passed c)) →
      Answers (exec .firmwareCheck s) (fun t => s.Enters t 9 ∧ t.die.cores = [] ∧
        (bit s.die.boot.opts 5 = true → ∀ r, t.die.regionOn r = false) ∧ (bit s.die.boot.opts 5 = false → t.die.therm.regions = s.die.therm.regions))) ∧
      (bit s.die.boot.opts 6 = true → s.die.boot.done = [] → ∀ e ∈ s.die.cores, ¬ passed e.1 → Answers (exec .firmwareCheck s) (fun t =>
        64 * (e.1 / 64) + s.die.physCol e.1 ∈ t.die.grid.badCore ∧ (s.die.freeOf (regionRow e.1) = false → t.die.rowPresent (e.1 / 64) = false))))

/-- Self-test, repair, link training and the firmware check; the rules of repair and grade. -/
def Obligations.TestAndRepair : Prop :=
  Claims.RepairRules ∧ Claims.TestAndRepair

/-! ### Attestation and the fault log -/

/-- R437: where phase FIRMWARE ends, every core is reset: each of its contexts is EMPTY, each register at its reset value and each bank off; under IDLE
every region is put to sleep; and CEL_BOOT_T records the AON ticks from release. -/
def Obligations.FirmwareEnds : Prop :=
  ∀ s t : State, s.die.boot.porst = false → s.die.phase = 8 → exec .firmwareCheck s = .next t → t.die.phase = 9 →
    (∀ c, ((∀ n, ((t.die.core c).ctx n).state = .empty) ∧ (∀ o, (t.die.core c).reg o = coreRegReset o) ∧ (∀ m b, (t.die.core c).bank m b = .off) ∧
      t.die.core c = .reset)) ∧
    (bit s.die.boot.opts 5 = true → ∀ r, t.die.regionOn r = false) ∧ t.die.reg 0x140008 = BitVec.ofNat 32 s.die.aon.toNat

/-! ### Reset and bring-up -/

/-- R438 to R440: CEL_SITE_CTL with COMMIT = 0 stores GEN; with COMMIT = 1 it is refused outside phases IDLE and READY, refused SITE_BAD
for a description that does not hold together, and otherwise commits: GEN and SITE are set, measurement 2 is taken, the timestamp is adjusted on
the first commit, and the phase is READY. A write of a register of the description takes SITE away; one out of range is refused. -/
def Obligations.SiteDescription : Prop :=
  (∀ (s : State) (q : Req) (v : Word), s.MayWrite q 0x140034 →
    (bit v 31 = false → exec (.siteCommit q v) s = .next (s.withDie ((s.die.setNat 0x140030 (fld v 15 0)).answer q false St.OK []))) ∧
    (bit v 31 = true →
      (((s.die.phase ≠ 9 ∧ s.die.phase ≠ 10) ∨ s.die.job.state ≠ 0) → exec (.siteCommit q v) s = .next (s.withDie
        (((s.die.setNat 0x140030 (fld v 15 0)).bootErr 0 St.CTX_STATE).answer q false St.CTX_STATE []))) ∧
      ((s.die.phase = 9 ∨ s.die.phase = 10) → s.die.job.state = 0 → s.die.siteBad = true → exec (.siteCommit q v) s = .next (s.withDie
        (((s.die.setNat 0x140030 (fld v 15 0)).bootErr 0 St.SITE_BAD).answer q false St.SITE_BAD []))) ∧
      ((s.die.phase = 9 ∨ s.die.phase = 10) → s.die.job.state = 0 → s.die.siteBad = false → Answers (exec (.siteCommit q v) s) (fun t =>
        t.lastReply = some ⟨q, St.OK, []⟩ ∧ t.die.phase = 10 ∧ bit (t.die.reg 0x140000) 31 = true ∧
        t.die.reg 0x140034 = BitVec.ofNat 32 (put 1 31 + fld v 15 0) ∧ t.die.reg 0x140030 = BitVec.ofNat 32 (fld v 15 0) ∧
        bit (t.die.reg 0x200100) 2 = true ∧ t.die.boot.firstCommit = true ∧
        t.die.ts = (if s.die.boot.firstCommit then s.die.ts else s.die.ts + ((s.die.reg 0x14003C) ++ (s.die.reg 0x140038))) ∧
        t.die.job = s.die.job ∧ t.die.flog = s.die.flog)))) ∧
  (∀ (s : State) (q : Req) (n : Nat) (v : Word), n < siteRegs.length → s.MayWrite q (siteRow n) → s.die.meshOn = true →
    let off := siteRow n
    let stored (mask : Word) : Die := (s.die.setReg off (mergeMask (s.die.reg off) v mask)).siteStale
    (0x82000 ≤ off → off < 0x83000 → s.die.anyBusy = false → exec (.siteRegisterWrite q n v) s = .next (s.withDie
      ((stored (plainMask off &&& s.die.unitMask off)).answer q false St.OK []))) ∧
    (0x82000 ≤ off → off < 0x83000 → s.die.anyBusy = true → exec (.siteRegisterWrite q n v) s = .next (s.withDie
      ((s.die.porchErr 0 6 0 St.CTX_STATE).answer q false St.CTX_STATE []))) ∧
    (0x100000 ≤ off → off < 0x100020 → thmOk off v = false → exec (.siteRegisterWrite q n v) s = .next (s.withDie
      ((s.die.thmErr 0 St.THM_RANGE).answer q false St.THM_RANGE []))) ∧
    (0x10000C ≤ off → off < 0x100020 → exec (.siteRegisterWrite q n v) s = .next (s.withDie ((stored (thmMask off)).answer q false St.OK []))) ∧
    (off = 0x140038 ∨ off = 0x14003C → s.die.boot.firstCommit = false → exec (.siteRegisterWrite q n v) s = .next (s.withDie
      (((s.die.setReg off v).siteStale).answer q false St.OK []))) ∧
    (∀ (d : Die), bit (d.siteStale.reg 0x140034) 31 = false ∧ ∀ o, o ≠ 0x140034 → d.siteStale.reg o = d.reg o)) ∧
  siteRegs.length = 421 ∧ siteRegs.Pairwise (· < ·)

/-! ### Attestation and the fault log -/

/-- R470, R471: GO takes the message in the request buffer, once: it is refused while a request is at work, and one of a code that the responder
does not handle is answered ERROR at once. The requests that begin a session, in their order: GET_VERSION lists 1.2 and starts afresh;
GET_CAPABILITIES, then NEGOTIATE_ALGORITHMS, which takes P-384 and SHA-384 alone; out of order each is answered ERROR. The layouts are the model's
(log 107). -/
def Obligations.Attestation : Prop :=
  (∀ (s : State) (q : Req) (p : Fin 2) (v : Word), s.MayWrite q (0x200200 + 16 * p.val) →
    (bit v 31 = true → (s.die.spdmOf p.val).busy = true → Answers (exec (.spdmRequest q p v) s) (fun t =>
      t.die.spdm = s.die.spdm ∧ t.lastReply = some ⟨q, St.CTX_STATE, []⟩)) ∧
    (bit v 31 = false → exec (.spdmRequest q p v) s = .next (s.withDie
      ((s.die.setNat (0x200200 + 16 * p.val) (fld v 12 0)).answer q false St.OK []))) ∧
    (bit v 31 = true → (s.die.spdmOf p.val).busy = false →
      let d := s.die.setNat (0x200200 + 16 * p.val) (fld v 12 0)
      let m := d.spdmMsg p.val
      (byteAt m 1 ∈ spdmCodes → exec (.spdmRequest q p v) s = .next (s.withDie
        ((d.modSpdm p.val (fun y : Spdm => { y with busy := true })).answer q false St.OK []))) ∧
      (byteAt m 1 ∉ spdmCodes → Answers (exec (.spdmRequest q p v) s) (fun t => (t.die.spdmOf p.val).busy = false ∧
        (t.die.spdmOf p.val).resp = [0x12, 0x7F, 7, BitVec.ofNat 8 (byteAt m 1)] ∧ t.lastReply = some ⟨q, St.OK, []⟩)))) ∧
  (∀ (s : State) (p : Fin 2), s.die.boot.porst = false →
    let m := s.die.spdmMsg p.val
    let waits (code : Nat) : Prop := (s.die.spdmOf p.val).busy = true ∧ byteAt m 1 = code
    (¬ waits 0x84 → exec (.getVersion p) s = .next s) ∧ (¬ waits 0xE1 → exec (.getCapabilities p) s = .next s) ∧
    (¬ waits 0xE3 → exec (.negotiateAlgorithms p) s = .next s) ∧ (¬ waits 0x81 → exec (.getDigests p) s = .next s) ∧
    (¬ waits 0x82 → exec (.getCertificate p) s = .next s) ∧ (¬ waits 0x83 → exec (.challenge p) s = .next s) ∧
    (¬ waits 0xE0 → exec (.getMeasurements p) s = .next s)) ∧
  (∀ (s : State) (p : Fin 2) (m : List Byte),
    let y := s.die.spdmOf p.val
    let answers (o : Host.Outcome State Fault Refusal) (r : List Byte) (after : Nat × List Byte × List Byte × List Byte) : Prop :=
      Answers o (fun t => s.Replied t p.val r ∧ t.spdmAt p.val = after)
    let same := s.spdmAt p.val
    let early : List Byte := [0x12, 0x7F, 4, 0]
    (s.Asked p.val 0x84 m → answers (exec (.getVersion p) s) [0x10, 4, 0, 0, 0, 1, 0, 0x12] (1, m ++ [0x10, 4, 0, 0, 0, 1, 0, 0x12], [], [])) ∧
    (s.Asked p.val 0xE1 m → (y.stage = 0 → answers (exec (.getCapabilities p) s) early same) ∧
      (1 ≤ y.stage →
        let r : List Byte := [0x12, 0x61, 0, 0, 0, 15, 0, 0, 0x16, 0, 4, 0, 0, 0x10, 0, 0, 0, 0x10, 0, 0]
        answers (exec (.getCapabilities p) s) r (max 2 y.stage, y.transA ++ m ++ r, y.transB, y.transM))) ∧
    (s.Asked p.val 0xE3 m → (y.stage < 2 → answers (exec (.negotiateAlgorithms p) s) early same) ∧
      (2 ≤ y.stage →
        let offered : Prop := (byteAt m 6).testBit 0 = true ∧ (leAt m 8 4).testBit 7 = true ∧ (leAt m 12 4).testBit 1 = true
        let r : List Byte := [0x12, 0x63, 0, 0, 36, 0, 1, 0, 4, 0, 0, 0, 0x80, 0, 0, 0, 2, 0, 0, 0] ++ List.replicate 16 0
        (offered → answers (exec (.negotiateAlgorithms p) s) r (3, y.transA ++ m ++ r, y.transB, y.transM)) ∧
        (¬ offered → answers (exec (.negotiateAlgorithms p) s) [0x12, 0x7F, 1, 0] same))) ∧
    (s.Asked p.val 0x81 m → (y.stage < 3 → answers (exec (.getDigests p) s) early same) ∧
      (3 ≤ y.stage →
        let r : List Byte := [0x12, 1, 0, 1] ++ sha384 s.die.chain
        answers (exec (.getDigests p) s) r (y.stage, y.transA, y.transB ++ m ++ r, y.transM))) ∧
    (s.Asked p.val 0x82 m → (y.stage < 3 → answers (exec (.getCertificate p) s) early same) ∧
      (3 ≤ y.stage →
        let c := s.die.chain
        let off := leAt m 4 2
        ((byteAt m 2 % 16 ≠ 0 ∨ c.length ≤ off) → answers (exec (.getCertificate p) s) [0x12, 0x7F, 1, 0] same) ∧
        (byteAt m 2 % 16 = 0 → off < c.length →
          let n := min (min (leAt m 6 2) 4088) (c.length - off)
          let r : List Byte := [0x12, 2, 0, 0] ++ leBytes 2 n ++ leBytes 2 (c.length - off - n) ++ (c.drop off).take n
          answers (exec (.getCertificate p) s) r (y.stage, y.transA, y.transB ++ m ++ r, y.transM)))) ∧
    (s.Asked p.val 0x83 m → (y.stage < 3 → answers (exec (.challenge p) s) early same) ∧
      (3 ≤ y.stage →
        let fits : Prop := byteAt m 2 = 0 ∧ (byteAt m 3 = 0 ∨ byteAt m 3 = 1 ∨ byteAt m 3 = 0xFF)
        let r : List Byte := [0x12, 3, 0, 1] ++ sha384 s.die.chain ++ s.die.nonce.2 ++ s.die.summary (byteAt m 3) ++ [0, 0]
        (¬ fits → answers (exec (.challenge p) s) [0x12, 0x7F, 1, 0] same) ∧
        (fits → answers (exec (.challenge p) s) (r ++ Config.ecdsaSign s.die.aliasKey (signedHash "responder-challenge_auth signing"
          (y.transA ++ y.transB ++ m ++ r))) (y.stage, y.transA, [], y.transM)))) ∧
    (s.Asked p.val 0xE0 m → (y.stage < 3 → answers (exec (.getMeasurements p) s) early same) ∧
      (3 ≤ y.stage →
        let op := byteAt m 3
        let known : Prop := op ≤ 4 ∨ op = 0xFF
        let idx : List Nat := if op = 0 then [] else if op = 0xFF then [1, 2, 3, 4] else [op]
        let blocks := idx.flatMap s.die.measBlock
        let r : List Byte := [0x12, 0x60, if op = 0 then 4 else 0, 0, BitVec.ofNat 8 idx.length] ++ leBytes 3 blocks.length ++ blocks ++
          s.die.nonce.2 ++ [0, 0]
        (¬ known → answers (exec (.getMeasurements p) s) [0x12, 0x7F, 1, 0] same) ∧
        (known → (byteAt m 2).testBit 0 = false → answers (exec (.getMeasurements p) s) r (y.stage, y.transA, y.transB, y.transM ++ m ++ r)) ∧
        (known → (byteAt m 2).testBit 0 = true → answers (exec (.getMeasurements p) s)
          (r ++ Config.ecdsaSign s.die.aliasKey (signedHash "responder-measurements signing" (y.transA ++ (y.transM ++ m ++ r))))
          (y.stage, y.transA, y.transB, [])))))

/-- R492, R494, R499: a fault enters the queue of the log in the order of time, severity, source and place, or is counted as dropped when 32 wait; the
log's writer moves the first into the entry at WR, and counts it; the corrected errors of one core that reach the threshold in a window are
reported once. -/
def Obligations.FaultLog : Prop :=
  (∀ (e : FEntry) (l : List FEntry), l.Pairwise (fun a b => a.before b = true) →
    (insertEntry e l).Pairwise (fun a b => a.before b = true) ∧ (insertEntry e l).Perm (e :: l)) ∧
  (∀ (d : Die) (sev src loc ctx : Nat) (st : Status),
    (32 ≤ d.flog.length → d.report sev src loc st ctx = d.bump 0x240008 1) ∧
    (d.flog.length < 32 → (d.report sev src loc st ctx).flog = insertEntry ⟨d.cyc, d.ts, sev, src, loc, st, ctx,
      if src ≤ 1 then d.physCol loc else 0, d.rf 0xC0004 15 0⟩ d.flog ∧ (d.report sev src loc st ctx).regs = d.regs)) ∧
  (∀ s : State, s.die.boot.porst = false →
    (s.die.flog = [] → exec .faultLogWrite s = .next s) ∧
    (∀ e es, s.die.flog = e :: es → e.sev < 4 →
      let o := 0x241000 + 16 * s.die.rf 0x240004 5 0
      Answers (exec .faultLogWrite s) (fun t => t.die.flog = es ∧
        t.die.reg o = BitVec.ofNat 32 (e.ts.toNat % 2 ^ 32) ∧ t.die.reg (o + 4) = BitVec.ofNat 32 (e.ts.toNat / 2 ^ 32) ∧
        t.die.reg (o + 8) = BitVec.ofNat 32 (put 1 31 + put e.src 28 + put (e.loc % 4096) 16 + e.st.toNat) ∧
        t.die.reg (o + 12) = BitVec.ofNat 32 (put e.sev 30 + put (if e.src = 0 then e.ctx else 0) 28 + put e.pcol 18 + e.span) ∧
        t.die.reg 0x240004 = satAdd32 (s.die.reg 0x240004) 1 ∧ t.die.reg (0x240010 + 4 * e.sev) = satAdd32 (s.die.reg (0x240010 + 4 * e.sev)) 1 ∧
        t.die.cores = s.die.cores ∧ t.die.job = s.die.job))) ∧
  (∀ (s : State) (c : CoreCode), s.die.boot.porst = false →
    let k := s.coreAt c
    let storm : Prop := s.die.rf 0x240038 15 0 ≠ 0 ∧ k.ceWin = s.die.cyc / 2 ^ 20 ∧ s.die.rf 0x240038 15 0 ≤ k.ceCnt ∧ k.ceRaised = false ∧
      s.die.coreOn c.toNat = true
    (¬ storm → exec (.ceStorm c) s = .next s) ∧
    (storm → exec (.ceStorm c) s = .next (s.withDie ((s.die.setCore c.toNat { k with ceRaised := true }).report 0 0 c.toNat St.CE_STORM 0))))
end

