-- ==== Sys2Proof/Laws/Core.lean ====
section
/-! SUPPORT. What the work of a core can touch of the die around it: nothing but cores, registers of die control with the events of
the cycle, router inputs, the fault log's queue, the span marks and the modules' barrier events. -/

namespace Sys2Proof.Machine

@[simp] theorem setReg_around (d : Die) (o : Nat) (v : Word) : (d.setReg o v).around = d.around := rfl
@[simp] theorem setNat_around (d : Die) (o v : Nat) : (d.setNat o v).around = d.around := rfl
@[simp] theorem setF_around (d : Die) (o h l v : Nat) : (d.setF o h l v).around = d.around := rfl
@[simp] theorem noteAt_around (d : Die) (o : Nat) (f : Word → Word) : (d.noteAt o f).around = d.around := rfl
@[simp] theorem setFlag_around (d : Die) (o b : Nat) : (d.setFlag o b).around = d.around := rfl
@[simp] theorem bump_around (d : Die) (o n : Nat) : (d.bump o n).around = d.around := by unfold Die.bump; split <;> rfl
@[simp] theorem setCore_around (d : Die) (n : Nat) (k : Core) : (d.setCore n k).around = d.around := rfl
@[simp] theorem modRouter_around (d : Die) (n : Nat) (f : Router → Router) : (d.modRouter n f).around = d.around := rfl
@[simp] theorem modMod_around (d : Die) (m : Nat) (f : Module → Module) : (d.modMod m f).around = d.around := rfl
@[simp] theorem enter_around (d : Die) (n p : Nat) (f : Flit) : (d.enter n p f).around = d.around := rfl

@[simp] theorem report_around (d : Die) (a b c : Nat) (st : Status) (x : Nat) : (d.report a b c st x).around = d.around := by
  unfold Die.report; split
  · exact bump_around d _ _
  · rfl

@[simp] theorem recErr_around (d : Die) (o e a b c : Nat) (st : Status) : (d.recErr o e a b c st).around = d.around := by
  simp [Die.recErr]

@[simp] theorem porchErr_around (d : Die) (a b m : Nat) (st : Status) : (d.porchErr a b m st).around = d.around := by
  simp [Die.porchErr]

@[simp] theorem thmErr_around (d : Die) (a : Nat) (st : Status) : (d.thmErr a st).around = d.around := by simp [Die.thmErr]

@[simp] theorem dirty_around (d : Die) (a b : Nat) (st : Status) : (d.dirty a b st).around = d.around := by
  unfold Die.dirty; dsimp only; repeat' split
  all_goals rfl

@[simp] theorem spanFault_around (d : Die) (a b : Nat) (st : Status) : (d.spanFault a b st).around = d.around := by
  simp [Die.spanFault]

@[simp] theorem coreFault_around (d : Die) (c : CoreCode) (x : Nat) (st : Status) : (d.coreFault c x st).around = d.around := by
  simp [Die.coreFault]

@[simp] theorem event_around (d : Die) (c : CoreCode) (e : Ev) : (d.event c e).around = d.around := by
  cases e <;> simp [Die.event]

theorem foldl_around {α : Type} (l : List α) (g : Die → α → Die) (h : ∀ d a, (g d a).around = d.around) (d : Die) :
    (l.foldl g d).around = d.around := by
  induction l generalizing d with
  | nil => rfl
  | cons a l ih => rw [List.foldl_cons, ih, h]

@[simp] theorem runCore_around (d : Die) (c : CoreCode) (f : Wk → Wk) : (d.runCore c f).1.around = d.around := by
  simp only [Die.runCore]
  exact (foldl_around _ _ (fun d e => event_around d c e) _).trans rfl

@[simp] theorem sendEvent_around (d : Die) (m b ch : Nat) : (d.sendEvent m b ch).around = d.around := by
  unfold Die.sendEvent; split <;> simp

@[simp] theorem sendDown_around (d : Die) (ch b : Nat) : (d.sendDown ch b).around = d.around :=
  foldl_around _ _ (fun _ _ => sendEvent_around _ _ _ _) d

@[simp] theorem sendUp_around (d : Die) (ch b : Nat) : (d.sendUp ch b).around = d.around := by
  simp only [Die.sendUp]; split <;> simp

@[simp] theorem orphanBar_around (d : Die) (ch src loc : Nat) : (d.orphanBar ch src loc).around = d.around := by
  have h (l : List CoreCode) (d : Die) :
      (l.foldl (fun d k => if src = 0 ∧ k.toNat = loc then d else (d.runCore k (Wk.orphanBound ch)).1) d).around = d.around :=
    foldl_around l _ (fun d k => by split <;> simp) d
  simp only [Die.orphanBar]
  repeat' split
  all_goals simp [h]

/-- The work of a core leaves the die around it. -/
@[simp] theorem onCore_around (d : Die) (c : CoreCode) (f : Wk → Wk) : (d.onCore c f).around = d.around := by
  simp only [Die.onCore]
  refine (foldl_around _ _ (fun d e => ?_) _).trans (runCore_around d c f)
  cases e <;> simp

@[simp] theorem atCore_around (d : Die) (c : CoreCode) (f : Wk → Wk) : (d.atCore c f).around = d.around := by
  unfold Die.atCore; split <;> simp

end Sys2Proof.Machine
end

