-- ==== Sys2Proof/Laws/Table.lean ====
section
/-! SUPPORT. The laws of the sparse table: a read after a write, whatever the table, and the canonical form that every operation keeps. -/

namespace Sys2Proof.Machine

section
variable {α : Type}

@[simp] theorem tget_nil (d : α) (k : Nat) : tget d [] k = d := rfl

/-- Entries taken away read as the default, the others as before. -/
theorem tget_tdrop (d : α) (t : Tbl α) (p : Nat → Bool) (k : Nat) : tget d (tdrop t p) k = if p k then d else tget d t k := by
  induction t with
  | nil => simp [tdrop, tget]
  | cons e t ih =>
    obtain ⟨j, v⟩ := e
    unfold tdrop at ih ⊢
    by_cases hp : p j
    · by_cases hk : k = j
      · subst hk; simp [hp, ih]
      · simp [hp, ih, tget, hk]
    · by_cases hk : k = j
      · subst hk; simp [hp, tget]
      · simp [hp, tget, hk, ih]

theorem tget_tput (d : α) (t : Tbl α) (k : Nat) (v : α) (h : ∀ e ∈ t, e.1 ≠ k) (k' : Nat) :
    tget d (tput t k v) k' = if k' = k then v else tget d t k' := by
  induction t with
  | nil => simp [tput, tget]
  | cons e t ih =>
    obtain ⟨j, w⟩ := e
    have hj : j ≠ k := h (j, w) (by simp)
    have := ih (fun e he => h e (by simp [he]))
    by_cases h1 : k < j
    · simp [tput, h1, tget]
    · by_cases h2 : k' = j
      · subst h2; simp [tput, h1, tget, hj]
      · simp [tput, h1, tget, h2, this]

theorem tdrop_absent (t : Tbl α) (k : Nat) : ∀ e ∈ tdrop t (fun j => j == k), e.1 ≠ k := by
  intro e he; simp [tdrop] at he; exact he.2

end

variable {α : Type} [DecidableEq α]

/-- A write of key `k` is read back. -/
@[simp] theorem tget_tset_self (d : α) (t : Tbl α) (k : Nat) (v : α) : tget d (tset d t k v) k = v := by
  unfold tset; split
  · simp [tget_tdrop, *]
  · simp [tget_tput _ _ _ _ (tdrop_absent t k)]

/-- A write of key `k` leaves every other key as it was. -/
theorem tget_tset_ne (d d' : α) (t : Tbl α) (k : Nat) {k' : Nat} (v : α) (h : k' ≠ k) : tget d' (tset d t k v) k' = tget d' t k' := by
  unfold tset; split
  · simp [tget_tdrop, h]
  · simp [tget_tput _ _ _ _ (tdrop_absent t k), h, tget_tdrop]

/-- A read of any key after a write. -/
theorem tget_tset (d : α) (t : Tbl α) (k : Nat) (v : α) (k' : Nat) : tget d (tset d t k v) k' = if k' = k then v else tget d t k' := by
  by_cases h : k' = k
  · subst h; simp
  · simp [tget_tset_ne, h]

/-- A read of any key after a change of one. -/
theorem tget_tmod (d : α) (t : Tbl α) (k : Nat) (f : α → α) (k' : Nat) :
    tget d (tmod d t k f) k' = if k' = k then f (tget d t k) else tget d t k' := tget_tset d t k _ k'

omit [DecidableEq α] in
theorem tdrop_tput (t : Tbl α) (k : Nat) (v : α) : tdrop (tput t k v) (fun j => j == k) = tdrop t (fun j => j == k) := by
  induction t with
  | nil => simp [tput, tdrop]
  | cons e t ih =>
    obtain ⟨j, w⟩ := e
    by_cases h : k < j
    · simp [tput, h, tdrop]
    · simp only [tput, h, if_false]
      unfold tdrop at ih ⊢
      rw [List.filter_cons, List.filter_cons, ih]

/-- The last of two writes of one key counts. -/
@[simp] theorem tset_tset (d : α) (t : Tbl α) (k : Nat) (v w : α) : tset d (tset d t k v) k w = tset d t k w := by
  have hd : tdrop (tdrop t (fun j => j == k)) (fun j => j == k) = tdrop t (fun j => j == k) := by simp [tdrop, List.filter_filter]
  have h : tdrop (tset d t k v) (fun j => j == k) = tdrop t (fun j => j == k) := by
    unfold tset; split
    · exact hd
    · rw [tdrop_tput, hd]
  unfold tset at h ⊢
  rw [h]

@[simp] theorem tset_nil (d : α) (k : Nat) (v : α) : tset d [] k v = if v = d then [] else [(k, v)] := by simp [tset, tdrop, tput]

/-! ### The listed keys -/

omit [DecidableEq α] in
theorem mem_tkeys (t : Tbl α) (k : Nat) : k ∈ tkeys t ↔ ∃ v, (k, v) ∈ t := by
  induction t with
  | nil => simp [tkeys]
  | cons e t ih =>
    obtain ⟨j, v⟩ := e
    unfold tkeys
    split
    · rename_i h
      have hj : j ∈ tkeys t := by simpa using h
      constructor
      · intro hk; obtain ⟨w, hw⟩ := ih.1 hk; exact ⟨w, by simp [hw]⟩
      · rintro ⟨w, hw⟩
        rcases List.mem_cons.1 hw with h | h
        · cases h; exact hj
        · exact ih.2 ⟨w, h⟩
    · rw [List.mem_cons, ih]
      constructor
      · rintro (rfl | ⟨w, hw⟩)
        · exact ⟨v, by simp⟩
        · exact ⟨w, by simp [hw]⟩
      · rintro ⟨w, hw⟩
        rcases List.mem_cons.1 hw with h | h
        · cases h; exact .inl rfl
        · exact .inr ⟨w, h⟩

omit [DecidableEq α] in
theorem tkeys_nodup (t : Tbl α) : (tkeys t).Nodup := by
  induction t with
  | nil => simp [tkeys]
  | cons e t ih =>
    unfold tkeys; split
    · exact ih
    · rename_i h; exact List.nodup_cons.2 ⟨by simpa using h, ih⟩

omit [DecidableEq α] in
/-- A key that is not listed reads as the default. -/
theorem tget_unlisted (d : α) (t : Tbl α) (k : Nat) (h : k ∉ tkeys t) : tget d t k = d := by
  have h' : ∀ v, (k, v) ∉ t := fun v hv => h ((mem_tkeys t k).2 ⟨v, hv⟩)
  clear h
  induction t with
  | nil => rfl
  | cons e t ih =>
    obtain ⟨j, v⟩ := e
    have hj : k ≠ j := by rintro rfl; exact h' v (by simp)
    simp [tget, hj, ih (fun w hw => h' w (by simp [hw]))]

/-! ### The canonical form -/

/-- A bound may be lowered. -/
theorem tblWf_mono {d : α} : ∀ {lo lo' : Nat} {t : Tbl α}, lo' ≤ lo → tblWf d lo t = true → tblWf d lo' t = true
  | _, _, [], _, _ => rfl
  | lo, lo', (j, v) :: t, h, hw => by simp [tblWf] at hw ⊢; exact ⟨⟨by omega, hw.1.2⟩, hw.2⟩

/-- Taking entries away keeps it. -/
theorem tblWf_tdrop (d : α) : ∀ {lo : Nat} {t : Tbl α} (p : Nat → Bool), tblWf d lo t = true → tblWf d lo (tdrop t p) = true
  | _, [], _, _ => rfl
  | lo, (j, v) :: t, p, h => by
    simp [tblWf] at h
    by_cases hp : p j
    · simp only [tdrop, List.filter, hp, Bool.not_true]
      exact tblWf_mono (by omega) (tblWf_tdrop d p h.2)
    · simp only [tdrop, List.filter, hp, Bool.not_false]
      simp [tblWf, h.1]; exact tblWf_tdrop d p h.2

theorem tblWf_tput (d : α) : ∀ {lo : Nat} {t : Tbl α} (k : Nat) (v : α), v ≠ d → lo ≤ k → (∀ e ∈ t, e.1 ≠ k) → tblWf d lo t = true →
    tblWf d lo (tput t k v) = true
  | lo, [], k, v, hv, hk, _, _ => by simp [tput, tblWf, hv, hk]
  | lo, (j, w) :: t, k, v, hv, hk, ha, hw => by
    simp [tblWf] at hw
    have hj : j ≠ k := ha (j, w) (by simp)
    by_cases h1 : k < j
    · have hn : k + 1 ≤ j := h1
      simp [tput, tblWf, h1, hn, hk, hv, hw.1.2, hw.2]
    · simp [tput, tblWf, h1, hw.1]
      exact tblWf_tput d k v hv (by omega) (fun e he => ha e (by simp [he])) hw.2

/-- A write keeps the canonical form. -/
theorem tblWf_tset (d : α) {lo : Nat} {t : Tbl α} (k : Nat) (v : α) (hk : lo ≤ k) (h : tblWf d lo t = true) : tblWf d lo (tset d t k v) = true := by
  unfold tset; split
  · exact tblWf_tdrop d _ h
  · exact tblWf_tput d k v ‹_› hk (tdrop_absent t k) (tblWf_tdrop d _ h)

/-- So does a change of one key. -/
theorem tblWf_tmod (d : α) {t : Tbl α} (k : Nat) (f : α → α) (h : tblWf d 0 t = true) : tblWf d 0 (tmod d t k f) = true :=
  tblWf_tset d k _ (Nat.zero_le k) h

/-- A key below a canonical table's bound is not listed. -/
theorem tget_below {d : α} : ∀ {lo : Nat} {t : Tbl α} {k : Nat}, tblWf d lo t = true → k < lo → tget d t k = d
  | _, [], _, _, _ => rfl
  | lo, (j, v) :: t, k, h, hk => by
    simp [tblWf] at h
    simp [tget, show k ≠ j by omega, tget_below h.2 (show k < j + 1 by omega)]

/-- Equal reads, equal tables: the canonical form is one table for each function. -/
theorem tbl_ext {d : α} : ∀ {lo : Nat} {t u : Tbl α}, tblWf d lo t = true → tblWf d lo u = true → (∀ k, tget d t k = tget d u k) → t = u
  | _, [], [], _, _, _ => rfl
  | _, [], (j, v) :: u, _, hu, h => by
    have := h j
    simp [tblWf] at hu
    simp [tget] at this
    exact absurd this.symm hu.1.2
  | _, (j, v) :: t, [], ht, _, h => by
    have := h j
    simp [tblWf] at ht
    simp [tget] at this
    exact absurd this ht.1.2
  | lo, (j, v) :: t, (i, w) :: u, ht, hu, h => by
    simp [tblWf] at ht hu
    have hji : j = i := by
      rcases Nat.lt_trichotomy j i with hlt | heq | hgt
      · have := h j; simp [tget, show j ≠ i by omega, tget_below hu.2 (show j < i + 1 by omega)] at this; exact absurd this ht.1.2
      · exact heq
      · have := h i; simp [tget, show i ≠ j by omega, tget_below ht.2 (show i < j + 1 by omega)] at this; exact absurd this.symm hu.1.2
    subst hji
    have hvw : v = w := by have := h j; simpa [tget] using this
    subst hvw
    have : t = u := tbl_ext ht.2 hu.2 (fun k => by
      by_cases hk : k = j
      · subst hk; rw [tget_below ht.2 (by omega), tget_below hu.2 (by omega)]
      · have := h k; simpa [tget, hk] using this)
    rw [this]

end Sys2Proof.Machine
end

