-- ==== Sys2Proof/Laws/Memory.lean ====
section
/-! SUPPORT. The memories of a core keep their canonical form: every operation that stores, zeroes or corrects leaves it, the reads touch
neither a byte nor an error state but for their counts and logs, and the core after reset has it (R143, R160 to R166). -/

namespace Sys2Proof.Machine

theorem reset_memWf : Core.reset.memWf = true := by decide

/-- A core that shares its memories with a canonical one is canonical. -/
theorem memWf_congr {a b : Core} (h1 : a.mem = b.mem) (h2 : a.werr = b.werr) : a.memWf = b.memWf := by simp [Core.memWf, h1, h2]

@[simp] theorem setReg_memWf (w : Wk) (o : Nat) (v : Word) : (w.setReg o v).c.memWf = w.c.memWf := rfl
@[simp] theorem bump_memWf (w : Wk) (o n : Nat) : (w.bump o n).c.memWf = w.c.memWf := by
  unfold Wk.bump Wk.onCore Core.bump; dsimp only; split <;> rfl
@[simp] theorem raise_memWf (w : Wk) (e : Ev) : (w.raise e).c.memWf = w.c.memWf := rfl
@[simp] theorem memErr_memWf (w : Wk) (st : Status) : (w.memErr st).c.memWf = w.c.memWf := rfl
@[simp] theorem spanFault_memWf (w : Wk) (st : Status) (x : Nat) : (w.spanFault st x).c.memWf = w.c.memWf := rfl

@[simp] theorem logCe_memWf (w : Wk) (m o port sym : Nat) (wb : Bool) : (w.logCe m o port sym wb).c.memWf = w.c.memWf := by
  simp only [Wk.logCe, Core.countCe]; repeat' split
  all_goals first | rfl | (simp only [Wk.onCore]; split <;> rfl)

@[simp] theorem logUe_memWf (w : Wk) (m o port ctx : Nat) : (w.logUe m o port ctx).c.memWf = w.c.memWf := by
  simp only [Wk.logUe]; split <;> rfl

theorem putByte_memWf {w : Wk} (m o : Nat) (v k : Byte) (h : w.c.memWf = true) : (w.putByte m o v k).c.memWf = true := by
  simp only [Core.memWf, Bool.and_eq_true] at h ⊢
  exact ⟨tblWf_tset 0 _ _ (Nat.zero_le _) h.1, h.2⟩

theorem setWerr_memWf {w : Wk} (m o : Nat) (e : WErr) (h : w.c.memWf = true) : (w.setWerr m o e).c.memWf = true := by
  simp only [Core.memWf, Bool.and_eq_true] at h ⊢
  exact ⟨h.1, tblWf_tset WErr.clean _ _ (Nat.zero_le _) h.2⟩

theorem poisonWord_memWf {w : Wk} (m o : Nat) (h : w.c.memWf = true) : (w.poisonWord m o).c.memWf = true := by
  unfold Wk.poisonWord; split
  · exact setWerr_memWf m o _ h
  · exact h

theorem zeroBank_memWf {w : Wk} (m b : Nat) (h : w.c.memWf = true) : (w.zeroBank m b).c.memWf = true := by
  simp only [Core.memWf, Bool.and_eq_true] at h ⊢
  refine ⟨?_, ?_⟩
  · simp only [Wk.zeroBank, Wk.onCore]; exact tblWf_tdrop 0 _ h.1
  · simp only [Wk.zeroBank, Wk.onCore]; exact tblWf_tdrop WErr.clean _ h.2

/-- A fold of operations that keep the form keeps it. -/
theorem foldl_memWf {α : Type} (l : List α) (g : Wk → α → Wk) (hg : ∀ w a, w.c.memWf = true → (g w a).c.memWf = true) {w : Wk}
    (h : w.c.memWf = true) : (l.foldl g w).c.memWf = true := by
  induction l generalizing w with
  | nil => exact h
  | cons a l ih => exact ih (hg w a h)

theorem putWord_memWf {w : Wk} (m o : Nat) (d : BitVec 64) (h : w.c.memWf = true) : (w.putWord m o d).c.memWf = true :=
  foldl_memWf _ _ (fun _ _ h => putByte_memWf m _ _ _ h) h

@[simp] theorem askPort_memWf (w : Wk) (port m : Nat) (b : Bool) (n t : Nat) (offs : List Nat) :
    (w.askPort port m b n t offs).c.memWf = w.c.memWf := rfl

/-- Keeping words as they stood touches no byte and no error state (R149). -/
theorem keepOld_memWf {w : Wk} (port m : Nat) (offs : List Nat) (h : w.c.memWf = true) : (w.keepOld port m offs).c.memWf = true :=
  foldl_memWf _ _ (fun w k h => by dsimp only; split <;> exact h) h

/-- The error states that a write leaves keep the form (R165). -/
theorem mergeErrs_memWf {w : Wk} (m : Nat) (l : List (Nat × Byte × Byte)) (h : w.c.memWf = true) : (w.mergeErrs m l).c.memWf = true := by
  refine foldl_memWf _ _ (fun w k h => ?_) h
  dsimp only
  split
  · exact setWerr_memWf m _ _ h
  · split
    · exact setWerr_memWf m _ _ (putWord_memWf m _ _ (by simpa using h))
    · exact setWerr_memWf m _ _ (by simpa using h)
    · exact h

/-- A write of bytes keeps the form (R160, R165). -/
theorem writeRaw_memWf {w : Wk} (m port : Nat) (ws : List (Nat × Byte × Byte)) (h : w.c.memWf = true) : (w.writeRaw m port ws).1.c.memWf = true := by
  simp only [Wk.writeRaw]
  have key : ∀ (w' : Wk), w'.c.memWf = true →
      (if w'.c.ceWb.isEmpty then w' else w'.onCore (fun c => { c with ceWb := c.ceWb.filter (fun k =>
        !((ws.filter (fun x => (w.c.bank m (w.bankAt m x.1)).serves)).map (fun x => 0x20000 * m + 8 * (x.1 / 8))).contains k) })).c.memWf
        = true := by
    intro w' h'; split
    · exact h'
    · exact (memWf_congr rfl rfl).trans h'
  apply key
  exact foldl_memWf _ _ (fun _ _ h => putByte_memWf m _ _ _ h) (mergeErrs_memWf m _ (keepOld_memWf port m _ h))

/-- So does one with its port accesses. -/
theorem writeMem_memWf {w : Wk} (m port : Nat) (ws : List (Nat × Byte × Byte)) (h : w.c.memWf = true) : (w.writeMem m port ws).1.c.memWf = true :=
  writeRaw_memWf m port ws h

/-- So does a write through a handle (R155). -/
theorem writeBuf_memWf {w : Wk} (b : Buf) (port : Nat) (ws : List (Int × Byte × Byte)) (h : w.c.memWf = true) :
    (w.writeBuf b port ws).1.c.memWf = true :=
  writeMem_memWf b.mem port _ h

theorem noteRead_memWf (w : Wk) (m port ctx : Nat) (offs : List Nat) : (w.noteRead m port ctx offs).1.c.memWf = w.c.memWf := by
  simp only [Wk.noteRead]
  suffices H : ∀ (l : List Nat) (a : Wk × Bool), (l.foldl (fun (a : Wk × Bool) k =>
      match (w.errFor port m (8 * k)).read with
      | .sym i _ => (a.1.logCe m (8 * k) port i true, a.2)
      | .bad => (a.1.logUe m (8 * k) port ctx, true)
      | .clean => a) a).1.c.memWf = a.1.c.memWf from H _ _
  intro l
  induction l with
  | nil => intro a; rfl
  | cons k l ih =>
    intro a
    rw [List.foldl_cons, ih]
    split <;> simp

/-- A read changes no byte and no error state. -/
theorem readMem_memWf (w : Wk) (m port ctx : Nat) (offs : List Nat) : (w.readMem m port ctx offs).1.c.memWf = w.c.memWf :=
  noteRead_memWf w m port ctx offs

theorem readBuf_memWf (w : Wk) (b : Buf) (port ctx : Nat) (os : List Int) : (w.readBuf b port ctx os).1.c.memWf = w.c.memWf :=
  noteRead_memWf w b.mem port ctx (b.offs os)

/-- Where every word that a read finds is clean, it counts and logs nothing (R163, R164). -/
theorem noteRead_clean {w : Wk} {m port ctx : Nat} {offs : List Nat} (h : w.badFor port m offs = []) : w.noteRead m port ctx offs = (w, false) := by
  simp [Wk.noteRead, h]

/-- A word that nothing has written in this cycle is found by every port as it stands (R149). -/
theorem oldWord_none {w : Wk} {m o : Nat} (port : Nat) (h : (tget OldWord.none w.c.old (w.byteKey m o / 8)).at_ ≠ w.env.cyc + 1) :
    w.oldWord port m o = none := by simp [Wk.oldWord, h]

/-- Such a byte is read as it stands (R149, R163). -/
theorem byteFor_eq {w : Wk} {m o : Nat} (port : Nat) (h : (tget OldWord.none w.c.old (w.byteKey m o / 8)).at_ ≠ w.env.cyc + 1) :
    w.byteFor port m o = w.byteAt m o := by simp [Wk.byteFor, oldWord_none port h]

end Sys2Proof.Machine
end

