-- ==== Sys2Proof/Laws/Ops.lean ====
section
/-! SUPPORT. What the shared operations of the commands do, said once each: how a command reaches the die, a core, the mesh domain
or a register of die control, and how a core issues a word. -/

namespace Sys2Proof.Machine

/-! ### Reaching the die -/

@[simp] theorem onDie_eq (s : State) (f : Die → Die) : s.onDie f = .next (s.withDie (f s.die)) := rfl

@[simp] theorem withDie_self (s : State) : s.withDie s.die = s := rfl

/-- While PORST_N is low a command of die control changes nothing (R542). -/
theorem live_reset {s : State} (f : Die → Die) (h : s.die.boot.porst = true) : s.live f = .next s := by simp [State.live, h]

/-- Otherwise it does its work on the die. -/
theorem live_run {s : State} (f : Die → Die) (h : s.die.boot.porst = false) : s.live f = .next (s.withDie (f s.die)) := by
  simp [State.live, h]

/-- A command of the mesh domain does its work while that domain is on (R391, R407, R417). -/
theorem inMesh_run {s : State} (f : Die → Die) (h : s.die.meshOn = true) : s.inMesh f = .next (s.withDie (f s.die)) := by
  simp [State.inMesh, h]

/-- It changes nothing while the domain is off. -/
theorem inMesh_off {s : State} (f : Die → Die) (h : s.die.meshOn = false) : s.inMesh f = .next s := by simp [State.inMesh, h]

/-- A write of die control that the checks let through has its effect, and is answered unless its response waits (R452, R502). -/
theorem port_run {s : State} {q : Req} {off : Nat} (f : Die → Die × Option Status) (h : s.MayWrite q off) :
    s.port q off f = .next (s.withDie (Die.settle (f s.die) q)) := by
  obtain ⟨h1, h0, hp, h2, h3, h4⟩ := h
  have h5 : ¬ (dieBlock off = some true ∧ s.die.meshOn = false) := by
    rintro ⟨a, b⟩; simp [h3 a] at b
  simp [State.port, State.live, h0, h1, hp, Die.portCmd, h2, h4, h5]

/-- One that a check stops has no effect and is answered with the check's status. -/
theorem port_refused {s : State} {q : Req} {off : Nat} {st : Status} (f : Die → Die × Option Status) (h1 : s.die.boot.porst = false)
    (h0 : s.die.comes q = true) (h2 : s.die.latchDue = s.die)
    (h3 : (if dieBlock off = some true ∧ s.die.meshOn = false then St.REGION_OFF
      else if q.byPort = false then St.WIN_DENIED else s.die.mayWrite q (.die off)) = st)
    (h4 : st ≠ St.OK) : s.port q off f = .next (s.withDie (s.die.answer q false st [])) := by
  simp [State.port, State.live, h0, h1, Die.portCmd, h2, h3, h4]

/-! ### Reaching a core -/

/-- A command on a core that is not at work changes nothing (R29, R392). -/
theorem onCore_off {s : State} {c : CoreCode} (f : Wk → Wk) (h : s.die.coreOn c.toNat = false) : s.onCore c f = .next s := by
  simp [State.onCore, Die.atCore, h]

/-- A command on a core at work that raises nothing replaces the core and nothing else. -/
theorem onCore_quiet {s : State} {c : CoreCode} (f : Wk → Wk) (h : s.die.coreOn c.toNat = true) (he : (f (s.wk c)).evs = []) :
    s.onCore c f = .next (s.withCore c (f (s.wk c)).c) := by
  have he' : (f ⟨s.die.env c, s.die.core c.toNat, []⟩).evs = [] := he
  simp [State.onCore, Die.atCore, h, Die.onCore, Die.runCore, he', State.withCore, State.wk, State.coreAt]

/-- A command on a core at work that raises one fault of the span: the core is replaced, the span is dirty, the fault is logged. -/
theorem onCore_fault {s : State} {c : CoreCode} (f : Wk → Wk) {st : Status} {ctx : Nat} (h : s.die.coreOn c.toNat = true)
    (he : (f (s.wk c)).evs = [.dirty st, .fault 1 st ctx]) :
    s.onCore c f = .next (s.withDie ((s.die.setCore c.toNat (f (s.wk c)).c).coreFault c ctx st)) := by
  have he' : (f ⟨s.die.env c, s.die.core c.toNat, []⟩).evs = [.dirty st, .fault 1 st ctx] := he
  simp [State.onCore, Die.atCore, h, Die.onCore, Die.runCore, he', Die.event, Die.coreFault, State.wk, State.coreAt]

/-! ### Issue -/

/-- The next word issues when it can (R173, R174, R178). -/
theorem issue_run {s : State} {c : CoreCode} {ctx pc : Nat} {x : BitVec 64} (h : s.Issues c ctx pc x)
    (run : Wk → Nat → Nat → BitVec 64 → Wk) : (s.wk c).issue (opc x) run = run (s.wk c) ctx pc x := by
  obtain ⟨_, h1, h2, h3, h4, h5, h6, h7⟩ := h
  have e1 : (s.wk c).c = s.coreAt c := rfl
  have e2 : (s.wk c).env.cyc = s.die.cyc := rfl
  have h7' : ¬ (queueOf x ≠ 0 ∧ queueDepth (queueOf x) ≤ ((s.coreAt c).queue (queueOf x)).length) := by
    rintro ⟨a, b⟩; exact absurd (h7 a) (by omega)
  simp only [Wk.issue, h1, e1, e2, h2, h3, h4, h5, h6]
  simp [h7']

/-! ### An engine whose instruction stands alone -/

theorem formRun_none {w : Wk} {ch : Nat} (h : (w.c.chan ch).run = none) : w.formRun ch = w := by simp [Wk.formRun, h]

/-- No transfer runs, so none is formed. -/
theorem formRuns_none {w : Wk} (h : ∀ ch, ch < 4 → (w.c.chan ch).run = none) : iter 4 (fun ch w => w.formRun ch) w = w := by
  have e : List.range 4 = [0, 1, 2, 3] := rfl
  simp [iter, e, formRun_none (h 0 (by decide)), formRun_none (h 1 (by decide)), formRun_none (h 2 (by decide)),
    formRun_none (h 3 (by decide))]

theorem pumpQueue_empty {w : Wk} {q : Nat} {b : Bool} (h : w.c.queue q = []) : Wk.pumpQueue q (w, b) = (w, b) := by
  simp [Wk.pumpQueue, h]

theorem pumpSync0_none {w : Wk} {b : Bool} (h : w.c.sync0 = none) : Wk.pumpSync0 (w, b) = (w, b) := by simp [Wk.pumpSync0, h]

/-- With every queue empty nothing moves. -/
theorem pumpOnce_idle {w : Wk} (hq : w.c.queues = []) (h0 : w.c.sync0 = none) : w.pumpOnce = (w, false) := by
  have h (q : Nat) : w.c.queue q = [] := by simp [Core.queue, hq]
  simp [Wk.pumpOnce, pumpSync0_none h0, pumpQueue_empty, h]

theorem foldl_add_ge (l : List Nat) (a : Nat) : a ≤ l.foldl (· + ·) a := by
  induction l generalizing a with
  | nil => exact Nat.le_refl a
  | cons x l ih => exact Nat.le_trans (Nat.le_add_right a x) (ih (a + x))

/-- The rounds of a core are at least two. -/
theorem workLeft_ge (k : Core) : ∃ n, k.workLeft = n + 2 :=
  ⟨k.workLeft - 2, by have : 2 ≤ k.workLeft := foldl_add_ge _ 2; omega⟩

/-- One queue holds one instruction. -/
theorem queue_single {k : Core} {q : Nat} {e : QEntry} (h : k.queues = [(q, [e])]) (r : Nat) :
    k.queue r = if r = q then [e] else [] := by
  simp [Core.queue, h, tget]

theorem popQueue_queues {w : Wk} {q : Nat} {e : QEntry} (h : w.c.queues = [(q, [e])]) : (w.popQueue q).c.queues = [] := by
  have : w.c.queue q = [e] := by simp [queue_single h]
  simp [Wk.popQueue, Wk.setQueue, Wk.onCore, this, h, tset, tdrop]

/-- The attempt of the one waiting instruction is what one round does. -/
theorem pumpOnce_single {w : Wk} {q : Nat} {e : QEntry} (h : w.c.queues = [(q, [e])]) (h0 : w.c.sync0 = none) (h1 : 1 ≤ q) (h5 : q ≤ 5)
    {x : Wk × Bool} (hx : Wk.pumpQueue q (w, false) = x) (hr : ∀ r, r ≠ q → x.1.c.queue r = []) : w.pumpOnce = x := by
  have hw (r : Nat) (hr : r ≠ q) : w.c.queue r = [] := by simp [queue_single h, hr]
  obtain ⟨y, b⟩ := x
  have hy : ∀ r, r ≠ q → Wk.pumpQueue r (y, b) = (y, b) := fun r hne => pumpQueue_empty (hr r hne)
  have hv : ∀ r, r ≠ q → Wk.pumpQueue r (w, false) = (w, false) := fun r hne => pumpQueue_empty (hw r hne)
  have hq : q = 1 ∨ q = 2 ∨ q = 3 ∨ q = 4 ∨ q = 5 := by omega
  simp only [Wk.pumpOnce, pumpSync0_none h0]
  rcases hq with rfl | rfl | rfl | rfl | rfl
  · rw [hx, hy 2 (by decide), hy 3 (by decide), hy 4 (by decide), hy 5 (by decide)]
  · rw [hv 1 (by decide), hx, hy 3 (by decide), hy 4 (by decide), hy 5 (by decide)]
  · rw [hv 1 (by decide), hv 2 (by decide), hx, hy 4 (by decide), hy 5 (by decide)]
  · rw [hv 1 (by decide), hv 2 (by decide), hv 3 (by decide), hx, hy 5 (by decide)]
  · rw [hv 1 (by decide), hv 2 (by decide), hv 3 (by decide), hv 4 (by decide), hx]

/-- An instruction that stands alone and is done leaves its queue, and nothing else moves (R174). -/
theorem pump_done {w w' : Wk} {q : Nat} {e : QEntry} (h : w.c.queues = [(q, [e])]) (h0 : w.c.sync0 = none) (h1 : 1 ≤ q) (h5 : q ≤ 5)
    (hc : ∀ ch, ch < 4 → (w.c.chan ch).run = none) (hop : opc e.word ≠ 0x2A) (ha : w.attempt e q = .done w')
    (hq' : w'.c.queues = w.c.queues) (h0' : w'.c.sync0 = none) : w.pump = w'.popQueue q := by
  have hh : (w.c.queue q).head? = some e := by simp [queue_single h]
  have hp : Wk.pumpQueue q (w, false) = (w'.popQueue q, true) := by simp [Wk.pumpQueue, hh, ha, hop]
  have hpq := popQueue_queues (w := w') (hq'.trans h)
  have h1' := pumpOnce_single h h0 h1 h5 hp (fun r _ => by simp [Core.queue, hpq])
  have h2' : (w'.popQueue q).pumpOnce = (w'.popQueue q, false) := pumpOnce_idle hpq h0'
  obtain ⟨n, hn⟩ := workLeft_ge w.c
  simp [Wk.pump, formRuns_none hc, hn, Wk.pumpLoop, h1', h2']

/-- An instruction that stands alone and waits stays, and nothing else moves. -/
theorem pump_wait {w w' : Wk} {q : Nat} {e : QEntry} (h : w.c.queues = [(q, [e])]) (h0 : w.c.sync0 = none) (h1 : 1 ≤ q) (h5 : q ≤ 5)
    (hc : ∀ ch, ch < 4 → (w.c.chan ch).run = none) (ha : w.attempt e q = .wait w') (hq' : ∃ e', w'.c.queues = [(q, [e'])]) :
    w.pump = w' := by
  have hh : (w.c.queue q).head? = some e := by simp [queue_single h]
  have hp : Wk.pumpQueue q (w, false) = (w', false) := by simp [Wk.pumpQueue, hh, ha]
  obtain ⟨e', he'⟩ := hq'
  have h1' := pumpOnce_single h h0 h1 h5 hp (fun r hr => by simp [queue_single he', hr])
  obtain ⟨n, hn⟩ := workLeft_ge w.c
  simp [Wk.pump, formRuns_none hc, hn, Wk.pumpLoop, h1']

/-! ### What the issue of an engine instruction changes -/

/-- The loop back-edge changes the context's next word, its loops and a loop counter. -/
theorem backEdge_core (w : Wk) (ctx pc : Nat) : ∃ r x, w.backEdge ctx pc = { w with c := { w.c with regs := r, ctxs := x } } := by
  unfold Wk.backEdge
  split
  · split
    · exact ⟨_, _, rfl⟩
    · exact ⟨w.c.regs, _, rfl⟩
  · exact ⟨w.c.regs, _, rfl⟩

/-- Issue into a queue: the program counter of the context, its loop, the issue count and serial, and the queue (R174, R177). -/
theorem enqueue_core (w : Wk) (ctx pc : Nat) {x : BitVec 64} (hq : queueOf x ≠ 0) (hn : w.c.queues = []) : ∃ r f y,
    w.enqueue ctx pc x = { w with c := { w.c with regs := r, fresh := f, ctxs := y, serial := w.c.serial + 1, issueAt := w.env.cyc + 1,
                                                   queues := [(queueOf x, [w.c.entry ctx pc x])] } } := by
  obtain ⟨r, y, h⟩ := backEdge_core (w.issued ctx pc 0) ctx pc
  refine ⟨r, (w.issued ctx pc 0).c.fresh, y, ?_⟩
  simp only [Wk.enqueue, h, hq, if_false]
  simp [Wk.setQueue, Wk.onCore, Wk.issued, Wk.bump, Core.bump, Wk.modCtx, Core.modCtx, Core.setReg, Core.queue, hn]

/-- An engine instruction that issues on an idle core runs on from there. -/
theorem issueEngine_run {s : State} {c : CoreCode} {ctx pc : Nat} {x : BitVec 64} (h : s.Issues c ctx pc x) :
    (s.wk c).issueEngine (opc x) = (s.issuedWk c ctx pc x).pump := by
  simp [Wk.issueEngine, issue_run h, State.issuedWk]

/-- The core that the issue leaves, on an idle core. -/
theorem issuedWk_core (s : State) (c : CoreCode) (ctx pc : Nat) {x : BitVec 64} (hq : queueOf x ≠ 0) (hi : (s.coreAt c).Idle) :
    ∃ r f y, s.issuedWk c ctx pc x = ⟨s.die.env c, { s.coreAt c with
      regs := r, fresh := f, ctxs := y, serial := (s.coreAt c).serial + 1, issueAt := s.die.cyc + 1,
      queues := [(queueOf x, [(s.coreAt c).entry ctx pc x])] }, []⟩ :=
  enqueue_core (s.wk c) ctx pc hq hi.1

/-- An engine instruction that is done at once: the core it leaves, and nothing else of the block (R174, R175). -/
theorem engine_done {s : State} {c : CoreCode} {ctx pc : Nat} {x : BitVec 64} {w' : Wk} (h : s.Issues c ctx pc x)
    (hi : (s.coreAt c).Idle) (hq : queueOf x ≠ 0) (h5 : queueOf x ≤ 5) (hop : opc x ≠ 0x2A)
    (ha : (s.issuedWk c ctx pc x).attempt ((s.coreAt c).entry ctx pc x) (queueOf x) = .done w')
    (hq' : w'.c.queues = (s.issuedWk c ctx pc x).c.queues) (h0' : w'.c.sync0 = none) :
    (s.wk c).issueEngine (opc x) = w'.popQueue (queueOf x) := by
  obtain ⟨r, f, y, hw⟩ := issuedWk_core s c ctx pc hq hi
  rw [issueEngine_run h]
  refine pump_done (e := (s.coreAt c).entry ctx pc x) ?_ ?_ (by omega) h5 ?_ hop ha hq' h0'
  · rw [hw]
  · rw [hw]; exact hi.2.1
  · rw [hw]; exact hi.2.2

/-- An engine instruction that waits at the head of its queue. -/
theorem engine_wait {s : State} {c : CoreCode} {ctx pc : Nat} {x : BitVec 64} {w' : Wk} (h : s.Issues c ctx pc x)
    (hi : (s.coreAt c).Idle) (hq : queueOf x ≠ 0) (h5 : queueOf x ≤ 5)
    (ha : (s.issuedWk c ctx pc x).attempt ((s.coreAt c).entry ctx pc x) (queueOf x) = .wait w')
    (hq' : ∃ e', w'.c.queues = [(queueOf x, [e'])]) : (s.wk c).issueEngine (opc x) = w' := by
  obtain ⟨r, f, y, hw⟩ := issuedWk_core s c ctx pc hq hi
  rw [issueEngine_run h]
  refine pump_wait (e := (s.coreAt c).entry ctx pc x) ?_ ?_ (by omega) h5 ?_ ha hq'
  · rw [hw]
  · rw [hw]; exact hi.2.1
  · rw [hw]; exact hi.2.2

end Sys2Proof.Machine
end

