-- ==== Sys2Proof/Laws/State.lean ====
section
/-! SUPPORT. What the updates of the block, the die and a core leave: one lemma for each field of each update, true by unfolding the update
once, and what a read of a register, a core or a context gives after a write of one. No later proof unfolds a record update. -/

namespace Sys2Proof.Machine

/-! ### The block -/

@[simp] theorem withDie_die (s : State) (d : Die) : (s.withDie d).die = d := rfl
@[simp] theorem withDie_bus (s : State) (d : Die) : (s.withDie d).bus = s.bus := rfl
@[simp] theorem withDie_tap (s : State) (d : Die) : (s.withDie d).tap = s.tap := rfl
@[simp] theorem withDie_pending (s : State) (d : Die) : (s.withDie d).pending = s.pending := rfl
@[simp] theorem withDie_withDie (s : State) (d d' : Die) : (s.withDie d).withDie d' = s.withDie d' := rfl
@[simp] theorem withCore_die (s : State) (c : CoreCode) (k : Core) : (s.withCore c k).die = s.die.setCore c.toNat k := rfl
@[simp] theorem withCore_bus (s : State) (c : CoreCode) (k : Core) : (s.withCore c k).bus = s.bus := rfl
@[simp] theorem withCore_tap (s : State) (c : CoreCode) (k : Core) : (s.withCore c k).tap = s.tap := rfl
@[simp] theorem withCore_pending (s : State) (c : CoreCode) (k : Core) : (s.withCore c k).pending = s.pending := rfl

/-! ### Registers of die control -/

@[simp] theorem setReg_cyc (d : Die) (off : Nat) (v : Word) : (d.setReg off v).cyc = d.cyc := rfl
@[simp] theorem setReg_fresh (d : Die) (off : Nat) (v : Word) : (d.setReg off v).fresh = d.fresh := rfl
@[simp] theorem setReg_sub (d : Die) (off : Nat) (v : Word) : (d.setReg off v).sub = d.sub := rfl
@[simp] theorem setReg_ts (d : Die) (off : Nat) (v : Word) : (d.setReg off v).ts = d.ts := rfl
@[simp] theorem setReg_aon (d : Die) (off : Nat) (v : Word) : (d.setReg off v).aon = d.aon := rfl
@[simp] theorem setReg_aonSub (d : Die) (off : Nat) (v : Word) : (d.setReg off v).aonSub = d.aonSub := rfl
@[simp] theorem setReg_cores (d : Die) (off : Nat) (v : Word) : (d.setReg off v).cores = d.cores := rfl
@[simp] theorem setReg_spares (d : Die) (off : Nat) (v : Word) : (d.setReg off v).spares = d.spares := rfl
@[simp] theorem setReg_routers (d : Die) (off : Nat) (v : Word) : (d.setReg off v).routers = d.routers := rfl
@[simp] theorem setReg_celIn (d : Die) (off : Nat) (v : Word) : (d.setReg off v).celIn = d.celIn := rfl
@[simp] theorem setReg_celAt (d : Die) (off : Nat) (v : Word) : (d.setReg off v).celAt = d.celAt := rfl
@[simp] theorem setReg_celRx (d : Die) (off : Nat) (v : Word) : (d.setReg off v).celRx = d.celRx := rfl
@[simp] theorem setReg_offRx (d : Die) (off : Nat) (v : Word) : (d.setReg off v).offRx = d.offRx := rfl
@[simp] theorem setReg_mods (d : Die) (off : Nat) (v : Word) : (d.setReg off v).mods = d.mods := rfl
@[simp] theorem setReg_conns (d : Die) (off : Nat) (v : Word) : (d.setReg off v).conns = d.conns := rfl
@[simp] theorem setReg_porchOff (d : Die) (off : Nat) (v : Word) : (d.setReg off v).porchOff = d.porchOff := rfl
@[simp] theorem setReg_hub (d : Die) (off : Nat) (v : Word) : (d.setReg off v).hub = d.hub := rfl
@[simp] theorem setReg_openTx (d : Die) (off : Nat) (v : Word) : (d.setReg off v).openTx = d.openTx := rfl
@[simp] theorem setReg_bars (d : Die) (off : Nat) (v : Word) : (d.setReg off v).bars = d.bars := rfl
@[simp] theorem setReg_flog (d : Die) (off : Nat) (v : Word) : (d.setReg off v).flog = d.flog := rfl
@[simp] theorem setReg_span (d : Die) (off : Nat) (v : Word) : (d.setReg off v).span = d.span := rfl
@[simp] theorem setReg_job (d : Die) (off : Nat) (v : Word) : (d.setReg off v).job = d.job := rfl
@[simp] theorem setReg_latch (d : Die) (off : Nat) (v : Word) : (d.setReg off v).latch = d.latch := rfl
@[simp] theorem setReg_therm (d : Die) (off : Nat) (v : Word) : (d.setReg off v).therm = d.therm := rfl
@[simp] theorem setReg_fuses (d : Die) (off : Nat) (v : Word) : (d.setReg off v).fuses = d.fuses := rfl
@[simp] theorem setReg_grid (d : Die) (off : Nat) (v : Word) : (d.setReg off v).grid = d.grid := rfl
@[simp] theorem setReg_boot (d : Die) (off : Nat) (v : Word) : (d.setReg off v).boot = d.boot := rfl
@[simp] theorem setReg_found (d : Die) (off : Nat) (v : Word) : (d.setReg off v).found = d.found := rfl
@[simp] theorem setReg_spdm (d : Die) (off : Nat) (v : Word) : (d.setReg off v).spdm = d.spdm := rfl
@[simp] theorem setReg_nonces (d : Die) (off : Nat) (v : Word) : (d.setReg off v).nonces = d.nonces := rfl
@[simp] theorem setReg_pins (d : Die) (off : Nat) (v : Word) : (d.setReg off v).pins = d.pins := rfl
@[simp] theorem setReg_shadow (d : Die) (off : Nat) (v : Word) : (d.setReg off v).shadow = d.shadow := rfl
@[simp] theorem setReg_held (d : Die) (off : Nat) (v : Word) : (d.setReg off v).held = d.held := rfl
@[simp] theorem setReg_resps (d : Die) (off : Nat) (v : Word) : (d.setReg off v).resps = d.resps := rfl

/-! ### Registers of die control, by number -/

@[simp] theorem setNat_cyc (d : Die) (off v : Nat) : (d.setNat off v).cyc = d.cyc := rfl
@[simp] theorem setNat_fresh (d : Die) (off v : Nat) : (d.setNat off v).fresh = d.fresh := rfl
@[simp] theorem setNat_sub (d : Die) (off v : Nat) : (d.setNat off v).sub = d.sub := rfl
@[simp] theorem setNat_ts (d : Die) (off v : Nat) : (d.setNat off v).ts = d.ts := rfl
@[simp] theorem setNat_aon (d : Die) (off v : Nat) : (d.setNat off v).aon = d.aon := rfl
@[simp] theorem setNat_aonSub (d : Die) (off v : Nat) : (d.setNat off v).aonSub = d.aonSub := rfl
@[simp] theorem setNat_cores (d : Die) (off v : Nat) : (d.setNat off v).cores = d.cores := rfl
@[simp] theorem setNat_spares (d : Die) (off v : Nat) : (d.setNat off v).spares = d.spares := rfl
@[simp] theorem setNat_routers (d : Die) (off v : Nat) : (d.setNat off v).routers = d.routers := rfl
@[simp] theorem setNat_celIn (d : Die) (off v : Nat) : (d.setNat off v).celIn = d.celIn := rfl
@[simp] theorem setNat_celAt (d : Die) (off v : Nat) : (d.setNat off v).celAt = d.celAt := rfl
@[simp] theorem setNat_celRx (d : Die) (off v : Nat) : (d.setNat off v).celRx = d.celRx := rfl
@[simp] theorem setNat_offRx (d : Die) (off v : Nat) : (d.setNat off v).offRx = d.offRx := rfl
@[simp] theorem setNat_mods (d : Die) (off v : Nat) : (d.setNat off v).mods = d.mods := rfl
@[simp] theorem setNat_conns (d : Die) (off v : Nat) : (d.setNat off v).conns = d.conns := rfl
@[simp] theorem setNat_porchOff (d : Die) (off v : Nat) : (d.setNat off v).porchOff = d.porchOff := rfl
@[simp] theorem setNat_hub (d : Die) (off v : Nat) : (d.setNat off v).hub = d.hub := rfl
@[simp] theorem setNat_openTx (d : Die) (off v : Nat) : (d.setNat off v).openTx = d.openTx := rfl
@[simp] theorem setNat_bars (d : Die) (off v : Nat) : (d.setNat off v).bars = d.bars := rfl
@[simp] theorem setNat_flog (d : Die) (off v : Nat) : (d.setNat off v).flog = d.flog := rfl
@[simp] theorem setNat_span (d : Die) (off v : Nat) : (d.setNat off v).span = d.span := rfl
@[simp] theorem setNat_job (d : Die) (off v : Nat) : (d.setNat off v).job = d.job := rfl
@[simp] theorem setNat_latch (d : Die) (off v : Nat) : (d.setNat off v).latch = d.latch := rfl
@[simp] theorem setNat_therm (d : Die) (off v : Nat) : (d.setNat off v).therm = d.therm := rfl
@[simp] theorem setNat_fuses (d : Die) (off v : Nat) : (d.setNat off v).fuses = d.fuses := rfl
@[simp] theorem setNat_grid (d : Die) (off v : Nat) : (d.setNat off v).grid = d.grid := rfl
@[simp] theorem setNat_boot (d : Die) (off v : Nat) : (d.setNat off v).boot = d.boot := rfl
@[simp] theorem setNat_found (d : Die) (off v : Nat) : (d.setNat off v).found = d.found := rfl
@[simp] theorem setNat_spdm (d : Die) (off v : Nat) : (d.setNat off v).spdm = d.spdm := rfl
@[simp] theorem setNat_nonces (d : Die) (off v : Nat) : (d.setNat off v).nonces = d.nonces := rfl
@[simp] theorem setNat_pins (d : Die) (off v : Nat) : (d.setNat off v).pins = d.pins := rfl
@[simp] theorem setNat_shadow (d : Die) (off v : Nat) : (d.setNat off v).shadow = d.shadow := rfl
@[simp] theorem setNat_held (d : Die) (off v : Nat) : (d.setNat off v).held = d.held := rfl
@[simp] theorem setNat_resps (d : Die) (off v : Nat) : (d.setNat off v).resps = d.resps := rfl

/-! ### Events of a cycle on a register of die control -/

@[simp] theorem noteAt_cyc (d : Die) (off : Nat) (f : Word → Word) : (d.noteAt off f).cyc = d.cyc := rfl
@[simp] theorem noteAt_sub (d : Die) (off : Nat) (f : Word → Word) : (d.noteAt off f).sub = d.sub := rfl
@[simp] theorem noteAt_ts (d : Die) (off : Nat) (f : Word → Word) : (d.noteAt off f).ts = d.ts := rfl
@[simp] theorem noteAt_aon (d : Die) (off : Nat) (f : Word → Word) : (d.noteAt off f).aon = d.aon := rfl
@[simp] theorem noteAt_aonSub (d : Die) (off : Nat) (f : Word → Word) : (d.noteAt off f).aonSub = d.aonSub := rfl
@[simp] theorem noteAt_regs (d : Die) (off : Nat) (f : Word → Word) : (d.noteAt off f).regs = d.regs := rfl
@[simp] theorem noteAt_cores (d : Die) (off : Nat) (f : Word → Word) : (d.noteAt off f).cores = d.cores := rfl
@[simp] theorem noteAt_spares (d : Die) (off : Nat) (f : Word → Word) : (d.noteAt off f).spares = d.spares := rfl
@[simp] theorem noteAt_routers (d : Die) (off : Nat) (f : Word → Word) : (d.noteAt off f).routers = d.routers := rfl
@[simp] theorem noteAt_celIn (d : Die) (off : Nat) (f : Word → Word) : (d.noteAt off f).celIn = d.celIn := rfl
@[simp] theorem noteAt_celAt (d : Die) (off : Nat) (f : Word → Word) : (d.noteAt off f).celAt = d.celAt := rfl
@[simp] theorem noteAt_celRx (d : Die) (off : Nat) (f : Word → Word) : (d.noteAt off f).celRx = d.celRx := rfl
@[simp] theorem noteAt_offRx (d : Die) (off : Nat) (f : Word → Word) : (d.noteAt off f).offRx = d.offRx := rfl
@[simp] theorem noteAt_mods (d : Die) (off : Nat) (f : Word → Word) : (d.noteAt off f).mods = d.mods := rfl
@[simp] theorem noteAt_conns (d : Die) (off : Nat) (f : Word → Word) : (d.noteAt off f).conns = d.conns := rfl
@[simp] theorem noteAt_porchOff (d : Die) (off : Nat) (f : Word → Word) : (d.noteAt off f).porchOff = d.porchOff := rfl
@[simp] theorem noteAt_hub (d : Die) (off : Nat) (f : Word → Word) : (d.noteAt off f).hub = d.hub := rfl
@[simp] theorem noteAt_openTx (d : Die) (off : Nat) (f : Word → Word) : (d.noteAt off f).openTx = d.openTx := rfl
@[simp] theorem noteAt_bars (d : Die) (off : Nat) (f : Word → Word) : (d.noteAt off f).bars = d.bars := rfl
@[simp] theorem noteAt_flog (d : Die) (off : Nat) (f : Word → Word) : (d.noteAt off f).flog = d.flog := rfl
@[simp] theorem noteAt_span (d : Die) (off : Nat) (f : Word → Word) : (d.noteAt off f).span = d.span := rfl
@[simp] theorem noteAt_job (d : Die) (off : Nat) (f : Word → Word) : (d.noteAt off f).job = d.job := rfl
@[simp] theorem noteAt_latch (d : Die) (off : Nat) (f : Word → Word) : (d.noteAt off f).latch = d.latch := rfl
@[simp] theorem noteAt_therm (d : Die) (off : Nat) (f : Word → Word) : (d.noteAt off f).therm = d.therm := rfl
@[simp] theorem noteAt_fuses (d : Die) (off : Nat) (f : Word → Word) : (d.noteAt off f).fuses = d.fuses := rfl
@[simp] theorem noteAt_grid (d : Die) (off : Nat) (f : Word → Word) : (d.noteAt off f).grid = d.grid := rfl
@[simp] theorem noteAt_boot (d : Die) (off : Nat) (f : Word → Word) : (d.noteAt off f).boot = d.boot := rfl
@[simp] theorem noteAt_found (d : Die) (off : Nat) (f : Word → Word) : (d.noteAt off f).found = d.found := rfl
@[simp] theorem noteAt_spdm (d : Die) (off : Nat) (f : Word → Word) : (d.noteAt off f).spdm = d.spdm := rfl
@[simp] theorem noteAt_nonces (d : Die) (off : Nat) (f : Word → Word) : (d.noteAt off f).nonces = d.nonces := rfl
@[simp] theorem noteAt_pins (d : Die) (off : Nat) (f : Word → Word) : (d.noteAt off f).pins = d.pins := rfl
@[simp] theorem noteAt_shadow (d : Die) (off : Nat) (f : Word → Word) : (d.noteAt off f).shadow = d.shadow := rfl
@[simp] theorem noteAt_held (d : Die) (off : Nat) (f : Word → Word) : (d.noteAt off f).held = d.held := rfl
@[simp] theorem noteAt_resps (d : Die) (off : Nat) (f : Word → Word) : (d.noteAt off f).resps = d.resps := rfl

/-! ### Cores of the die -/

@[simp] theorem setCore_cyc (d : Die) (n : Nat) (k : Core) : (d.setCore n k).cyc = d.cyc := rfl
@[simp] theorem setCore_fresh (d : Die) (n : Nat) (k : Core) : (d.setCore n k).fresh = d.fresh := rfl
@[simp] theorem setCore_sub (d : Die) (n : Nat) (k : Core) : (d.setCore n k).sub = d.sub := rfl
@[simp] theorem setCore_ts (d : Die) (n : Nat) (k : Core) : (d.setCore n k).ts = d.ts := rfl
@[simp] theorem setCore_aon (d : Die) (n : Nat) (k : Core) : (d.setCore n k).aon = d.aon := rfl
@[simp] theorem setCore_aonSub (d : Die) (n : Nat) (k : Core) : (d.setCore n k).aonSub = d.aonSub := rfl
@[simp] theorem setCore_regs (d : Die) (n : Nat) (k : Core) : (d.setCore n k).regs = d.regs := rfl
@[simp] theorem setCore_spares (d : Die) (n : Nat) (k : Core) : (d.setCore n k).spares = d.spares := rfl
@[simp] theorem setCore_routers (d : Die) (n : Nat) (k : Core) : (d.setCore n k).routers = d.routers := rfl
@[simp] theorem setCore_celIn (d : Die) (n : Nat) (k : Core) : (d.setCore n k).celIn = d.celIn := rfl
@[simp] theorem setCore_celAt (d : Die) (n : Nat) (k : Core) : (d.setCore n k).celAt = d.celAt := rfl
@[simp] theorem setCore_celRx (d : Die) (n : Nat) (k : Core) : (d.setCore n k).celRx = d.celRx := rfl
@[simp] theorem setCore_offRx (d : Die) (n : Nat) (k : Core) : (d.setCore n k).offRx = d.offRx := rfl
@[simp] theorem setCore_mods (d : Die) (n : Nat) (k : Core) : (d.setCore n k).mods = d.mods := rfl
@[simp] theorem setCore_conns (d : Die) (n : Nat) (k : Core) : (d.setCore n k).conns = d.conns := rfl
@[simp] theorem setCore_porchOff (d : Die) (n : Nat) (k : Core) : (d.setCore n k).porchOff = d.porchOff := rfl
@[simp] theorem setCore_hub (d : Die) (n : Nat) (k : Core) : (d.setCore n k).hub = d.hub := rfl
@[simp] theorem setCore_openTx (d : Die) (n : Nat) (k : Core) : (d.setCore n k).openTx = d.openTx := rfl
@[simp] theorem setCore_bars (d : Die) (n : Nat) (k : Core) : (d.setCore n k).bars = d.bars := rfl
@[simp] theorem setCore_flog (d : Die) (n : Nat) (k : Core) : (d.setCore n k).flog = d.flog := rfl
@[simp] theorem setCore_span (d : Die) (n : Nat) (k : Core) : (d.setCore n k).span = d.span := rfl
@[simp] theorem setCore_job (d : Die) (n : Nat) (k : Core) : (d.setCore n k).job = d.job := rfl
@[simp] theorem setCore_latch (d : Die) (n : Nat) (k : Core) : (d.setCore n k).latch = d.latch := rfl
@[simp] theorem setCore_therm (d : Die) (n : Nat) (k : Core) : (d.setCore n k).therm = d.therm := rfl
@[simp] theorem setCore_fuses (d : Die) (n : Nat) (k : Core) : (d.setCore n k).fuses = d.fuses := rfl
@[simp] theorem setCore_grid (d : Die) (n : Nat) (k : Core) : (d.setCore n k).grid = d.grid := rfl
@[simp] theorem setCore_boot (d : Die) (n : Nat) (k : Core) : (d.setCore n k).boot = d.boot := rfl
@[simp] theorem setCore_found (d : Die) (n : Nat) (k : Core) : (d.setCore n k).found = d.found := rfl
@[simp] theorem setCore_spdm (d : Die) (n : Nat) (k : Core) : (d.setCore n k).spdm = d.spdm := rfl
@[simp] theorem setCore_nonces (d : Die) (n : Nat) (k : Core) : (d.setCore n k).nonces = d.nonces := rfl
@[simp] theorem setCore_pins (d : Die) (n : Nat) (k : Core) : (d.setCore n k).pins = d.pins := rfl
@[simp] theorem setCore_shadow (d : Die) (n : Nat) (k : Core) : (d.setCore n k).shadow = d.shadow := rfl
@[simp] theorem setCore_held (d : Die) (n : Nat) (k : Core) : (d.setCore n k).held = d.held := rfl
@[simp] theorem setCore_resps (d : Die) (n : Nat) (k : Core) : (d.setCore n k).resps = d.resps := rfl

/-! ### Modules -/

@[simp] theorem modMod_cyc (d : Die) (m : Nat) (f : Module → Module) : (d.modMod m f).cyc = d.cyc := rfl
@[simp] theorem modMod_fresh (d : Die) (m : Nat) (f : Module → Module) : (d.modMod m f).fresh = d.fresh := rfl
@[simp] theorem modMod_sub (d : Die) (m : Nat) (f : Module → Module) : (d.modMod m f).sub = d.sub := rfl
@[simp] theorem modMod_ts (d : Die) (m : Nat) (f : Module → Module) : (d.modMod m f).ts = d.ts := rfl
@[simp] theorem modMod_aon (d : Die) (m : Nat) (f : Module → Module) : (d.modMod m f).aon = d.aon := rfl
@[simp] theorem modMod_aonSub (d : Die) (m : Nat) (f : Module → Module) : (d.modMod m f).aonSub = d.aonSub := rfl
@[simp] theorem modMod_regs (d : Die) (m : Nat) (f : Module → Module) : (d.modMod m f).regs = d.regs := rfl
@[simp] theorem modMod_cores (d : Die) (m : Nat) (f : Module → Module) : (d.modMod m f).cores = d.cores := rfl
@[simp] theorem modMod_spares (d : Die) (m : Nat) (f : Module → Module) : (d.modMod m f).spares = d.spares := rfl
@[simp] theorem modMod_routers (d : Die) (m : Nat) (f : Module → Module) : (d.modMod m f).routers = d.routers := rfl
@[simp] theorem modMod_celIn (d : Die) (m : Nat) (f : Module → Module) : (d.modMod m f).celIn = d.celIn := rfl
@[simp] theorem modMod_celAt (d : Die) (m : Nat) (f : Module → Module) : (d.modMod m f).celAt = d.celAt := rfl
@[simp] theorem modMod_celRx (d : Die) (m : Nat) (f : Module → Module) : (d.modMod m f).celRx = d.celRx := rfl
@[simp] theorem modMod_offRx (d : Die) (m : Nat) (f : Module → Module) : (d.modMod m f).offRx = d.offRx := rfl
@[simp] theorem modMod_conns (d : Die) (m : Nat) (f : Module → Module) : (d.modMod m f).conns = d.conns := rfl
@[simp] theorem modMod_porchOff (d : Die) (m : Nat) (f : Module → Module) : (d.modMod m f).porchOff = d.porchOff := rfl
@[simp] theorem modMod_hub (d : Die) (m : Nat) (f : Module → Module) : (d.modMod m f).hub = d.hub := rfl
@[simp] theorem modMod_openTx (d : Die) (m : Nat) (f : Module → Module) : (d.modMod m f).openTx = d.openTx := rfl
@[simp] theorem modMod_bars (d : Die) (m : Nat) (f : Module → Module) : (d.modMod m f).bars = d.bars := rfl
@[simp] theorem modMod_flog (d : Die) (m : Nat) (f : Module → Module) : (d.modMod m f).flog = d.flog := rfl
@[simp] theorem modMod_span (d : Die) (m : Nat) (f : Module → Module) : (d.modMod m f).span = d.span := rfl
@[simp] theorem modMod_job (d : Die) (m : Nat) (f : Module → Module) : (d.modMod m f).job = d.job := rfl
@[simp] theorem modMod_latch (d : Die) (m : Nat) (f : Module → Module) : (d.modMod m f).latch = d.latch := rfl
@[simp] theorem modMod_therm (d : Die) (m : Nat) (f : Module → Module) : (d.modMod m f).therm = d.therm := rfl
@[simp] theorem modMod_fuses (d : Die) (m : Nat) (f : Module → Module) : (d.modMod m f).fuses = d.fuses := rfl
@[simp] theorem modMod_grid (d : Die) (m : Nat) (f : Module → Module) : (d.modMod m f).grid = d.grid := rfl
@[simp] theorem modMod_boot (d : Die) (m : Nat) (f : Module → Module) : (d.modMod m f).boot = d.boot := rfl
@[simp] theorem modMod_found (d : Die) (m : Nat) (f : Module → Module) : (d.modMod m f).found = d.found := rfl
@[simp] theorem modMod_spdm (d : Die) (m : Nat) (f : Module → Module) : (d.modMod m f).spdm = d.spdm := rfl
@[simp] theorem modMod_nonces (d : Die) (m : Nat) (f : Module → Module) : (d.modMod m f).nonces = d.nonces := rfl
@[simp] theorem modMod_pins (d : Die) (m : Nat) (f : Module → Module) : (d.modMod m f).pins = d.pins := rfl
@[simp] theorem modMod_shadow (d : Die) (m : Nat) (f : Module → Module) : (d.modMod m f).shadow = d.shadow := rfl
@[simp] theorem modMod_held (d : Die) (m : Nat) (f : Module → Module) : (d.modMod m f).held = d.held := rfl
@[simp] theorem modMod_resps (d : Die) (m : Nat) (f : Module → Module) : (d.modMod m f).resps = d.resps := rfl

/-! ### Routers -/

@[simp] theorem modRouter_cyc (d : Die) (n : Nat) (f : Router → Router) : (d.modRouter n f).cyc = d.cyc := rfl
@[simp] theorem modRouter_fresh (d : Die) (n : Nat) (f : Router → Router) : (d.modRouter n f).fresh = d.fresh := rfl
@[simp] theorem modRouter_sub (d : Die) (n : Nat) (f : Router → Router) : (d.modRouter n f).sub = d.sub := rfl
@[simp] theorem modRouter_ts (d : Die) (n : Nat) (f : Router → Router) : (d.modRouter n f).ts = d.ts := rfl
@[simp] theorem modRouter_aon (d : Die) (n : Nat) (f : Router → Router) : (d.modRouter n f).aon = d.aon := rfl
@[simp] theorem modRouter_aonSub (d : Die) (n : Nat) (f : Router → Router) : (d.modRouter n f).aonSub = d.aonSub := rfl
@[simp] theorem modRouter_regs (d : Die) (n : Nat) (f : Router → Router) : (d.modRouter n f).regs = d.regs := rfl
@[simp] theorem modRouter_cores (d : Die) (n : Nat) (f : Router → Router) : (d.modRouter n f).cores = d.cores := rfl
@[simp] theorem modRouter_spares (d : Die) (n : Nat) (f : Router → Router) : (d.modRouter n f).spares = d.spares := rfl
@[simp] theorem modRouter_celIn (d : Die) (n : Nat) (f : Router → Router) : (d.modRouter n f).celIn = d.celIn := rfl
@[simp] theorem modRouter_celAt (d : Die) (n : Nat) (f : Router → Router) : (d.modRouter n f).celAt = d.celAt := rfl
@[simp] theorem modRouter_celRx (d : Die) (n : Nat) (f : Router → Router) : (d.modRouter n f).celRx = d.celRx := rfl
@[simp] theorem modRouter_offRx (d : Die) (n : Nat) (f : Router → Router) : (d.modRouter n f).offRx = d.offRx := rfl
@[simp] theorem modRouter_mods (d : Die) (n : Nat) (f : Router → Router) : (d.modRouter n f).mods = d.mods := rfl
@[simp] theorem modRouter_conns (d : Die) (n : Nat) (f : Router → Router) : (d.modRouter n f).conns = d.conns := rfl
@[simp] theorem modRouter_porchOff (d : Die) (n : Nat) (f : Router → Router) : (d.modRouter n f).porchOff = d.porchOff := rfl
@[simp] theorem modRouter_hub (d : Die) (n : Nat) (f : Router → Router) : (d.modRouter n f).hub = d.hub := rfl
@[simp] theorem modRouter_openTx (d : Die) (n : Nat) (f : Router → Router) : (d.modRouter n f).openTx = d.openTx := rfl
@[simp] theorem modRouter_bars (d : Die) (n : Nat) (f : Router → Router) : (d.modRouter n f).bars = d.bars := rfl
@[simp] theorem modRouter_flog (d : Die) (n : Nat) (f : Router → Router) : (d.modRouter n f).flog = d.flog := rfl
@[simp] theorem modRouter_span (d : Die) (n : Nat) (f : Router → Router) : (d.modRouter n f).span = d.span := rfl
@[simp] theorem modRouter_job (d : Die) (n : Nat) (f : Router → Router) : (d.modRouter n f).job = d.job := rfl
@[simp] theorem modRouter_latch (d : Die) (n : Nat) (f : Router → Router) : (d.modRouter n f).latch = d.latch := rfl
@[simp] theorem modRouter_therm (d : Die) (n : Nat) (f : Router → Router) : (d.modRouter n f).therm = d.therm := rfl
@[simp] theorem modRouter_fuses (d : Die) (n : Nat) (f : Router → Router) : (d.modRouter n f).fuses = d.fuses := rfl
@[simp] theorem modRouter_grid (d : Die) (n : Nat) (f : Router → Router) : (d.modRouter n f).grid = d.grid := rfl
@[simp] theorem modRouter_boot (d : Die) (n : Nat) (f : Router → Router) : (d.modRouter n f).boot = d.boot := rfl
@[simp] theorem modRouter_found (d : Die) (n : Nat) (f : Router → Router) : (d.modRouter n f).found = d.found := rfl
@[simp] theorem modRouter_spdm (d : Die) (n : Nat) (f : Router → Router) : (d.modRouter n f).spdm = d.spdm := rfl
@[simp] theorem modRouter_nonces (d : Die) (n : Nat) (f : Router → Router) : (d.modRouter n f).nonces = d.nonces := rfl
@[simp] theorem modRouter_pins (d : Die) (n : Nat) (f : Router → Router) : (d.modRouter n f).pins = d.pins := rfl
@[simp] theorem modRouter_shadow (d : Die) (n : Nat) (f : Router → Router) : (d.modRouter n f).shadow = d.shadow := rfl
@[simp] theorem modRouter_held (d : Die) (n : Nat) (f : Router → Router) : (d.modRouter n f).held = d.held := rfl
@[simp] theorem modRouter_resps (d : Die) (n : Nat) (f : Router → Router) : (d.modRouter n f).resps = d.resps := rfl

/-! ### Barrier channels -/

@[simp] theorem modBar_cyc (d : Die) (n : Nat) (f : Bar → Bar) : (d.modBar n f).cyc = d.cyc := rfl
@[simp] theorem modBar_fresh (d : Die) (n : Nat) (f : Bar → Bar) : (d.modBar n f).fresh = d.fresh := rfl
@[simp] theorem modBar_sub (d : Die) (n : Nat) (f : Bar → Bar) : (d.modBar n f).sub = d.sub := rfl
@[simp] theorem modBar_ts (d : Die) (n : Nat) (f : Bar → Bar) : (d.modBar n f).ts = d.ts := rfl
@[simp] theorem modBar_aon (d : Die) (n : Nat) (f : Bar → Bar) : (d.modBar n f).aon = d.aon := rfl
@[simp] theorem modBar_aonSub (d : Die) (n : Nat) (f : Bar → Bar) : (d.modBar n f).aonSub = d.aonSub := rfl
@[simp] theorem modBar_regs (d : Die) (n : Nat) (f : Bar → Bar) : (d.modBar n f).regs = d.regs := rfl
@[simp] theorem modBar_cores (d : Die) (n : Nat) (f : Bar → Bar) : (d.modBar n f).cores = d.cores := rfl
@[simp] theorem modBar_spares (d : Die) (n : Nat) (f : Bar → Bar) : (d.modBar n f).spares = d.spares := rfl
@[simp] theorem modBar_routers (d : Die) (n : Nat) (f : Bar → Bar) : (d.modBar n f).routers = d.routers := rfl
@[simp] theorem modBar_celIn (d : Die) (n : Nat) (f : Bar → Bar) : (d.modBar n f).celIn = d.celIn := rfl
@[simp] theorem modBar_celAt (d : Die) (n : Nat) (f : Bar → Bar) : (d.modBar n f).celAt = d.celAt := rfl
@[simp] theorem modBar_celRx (d : Die) (n : Nat) (f : Bar → Bar) : (d.modBar n f).celRx = d.celRx := rfl
@[simp] theorem modBar_offRx (d : Die) (n : Nat) (f : Bar → Bar) : (d.modBar n f).offRx = d.offRx := rfl
@[simp] theorem modBar_mods (d : Die) (n : Nat) (f : Bar → Bar) : (d.modBar n f).mods = d.mods := rfl
@[simp] theorem modBar_conns (d : Die) (n : Nat) (f : Bar → Bar) : (d.modBar n f).conns = d.conns := rfl
@[simp] theorem modBar_porchOff (d : Die) (n : Nat) (f : Bar → Bar) : (d.modBar n f).porchOff = d.porchOff := rfl
@[simp] theorem modBar_hub (d : Die) (n : Nat) (f : Bar → Bar) : (d.modBar n f).hub = d.hub := rfl
@[simp] theorem modBar_openTx (d : Die) (n : Nat) (f : Bar → Bar) : (d.modBar n f).openTx = d.openTx := rfl
@[simp] theorem modBar_flog (d : Die) (n : Nat) (f : Bar → Bar) : (d.modBar n f).flog = d.flog := rfl
@[simp] theorem modBar_span (d : Die) (n : Nat) (f : Bar → Bar) : (d.modBar n f).span = d.span := rfl
@[simp] theorem modBar_job (d : Die) (n : Nat) (f : Bar → Bar) : (d.modBar n f).job = d.job := rfl
@[simp] theorem modBar_latch (d : Die) (n : Nat) (f : Bar → Bar) : (d.modBar n f).latch = d.latch := rfl
@[simp] theorem modBar_therm (d : Die) (n : Nat) (f : Bar → Bar) : (d.modBar n f).therm = d.therm := rfl
@[simp] theorem modBar_fuses (d : Die) (n : Nat) (f : Bar → Bar) : (d.modBar n f).fuses = d.fuses := rfl
@[simp] theorem modBar_grid (d : Die) (n : Nat) (f : Bar → Bar) : (d.modBar n f).grid = d.grid := rfl
@[simp] theorem modBar_boot (d : Die) (n : Nat) (f : Bar → Bar) : (d.modBar n f).boot = d.boot := rfl
@[simp] theorem modBar_found (d : Die) (n : Nat) (f : Bar → Bar) : (d.modBar n f).found = d.found := rfl
@[simp] theorem modBar_spdm (d : Die) (n : Nat) (f : Bar → Bar) : (d.modBar n f).spdm = d.spdm := rfl
@[simp] theorem modBar_nonces (d : Die) (n : Nat) (f : Bar → Bar) : (d.modBar n f).nonces = d.nonces := rfl
@[simp] theorem modBar_pins (d : Die) (n : Nat) (f : Bar → Bar) : (d.modBar n f).pins = d.pins := rfl
@[simp] theorem modBar_shadow (d : Die) (n : Nat) (f : Bar → Bar) : (d.modBar n f).shadow = d.shadow := rfl
@[simp] theorem modBar_held (d : Die) (n : Nat) (f : Bar → Bar) : (d.modBar n f).held = d.held := rfl
@[simp] theorem modBar_resps (d : Die) (n : Nat) (f : Bar → Bar) : (d.modBar n f).resps = d.resps := rfl

/-! ### Registers of a core -/

@[simp] theorem coreSetReg_fresh (k : Core) (off : Nat) (v : Word) : (k.setReg off v).fresh = k.fresh := rfl
@[simp] theorem coreSetReg_mem (k : Core) (off : Nat) (v : Word) : (k.setReg off v).mem = k.mem := rfl
@[simp] theorem coreSetReg_werr (k : Core) (off : Nat) (v : Word) : (k.setReg off v).werr = k.werr := rfl
@[simp] theorem coreSetReg_ceWb (k : Core) (off : Nat) (v : Word) : (k.setReg off v).ceWb = k.ceWb := rfl
@[simp] theorem coreSetReg_old (k : Core) (off : Nat) (v : Word) : (k.setReg off v).old = k.old := rfl
@[simp] theorem coreSetReg_ports (k : Core) (off : Nat) (v : Word) : (k.setReg off v).ports = k.ports := rfl
@[simp] theorem coreSetReg_banks (k : Core) (off : Nat) (v : Word) : (k.setReg off v).banks = k.banks := rfl
@[simp] theorem coreSetReg_patrolAt (k : Core) (off : Nat) (v : Word) : (k.setReg off v).patrolAt = k.patrolAt := rfl
@[simp] theorem coreSetReg_patrolRow (k : Core) (off : Nat) (v : Word) : (k.setReg off v).patrolRow = k.patrolRow := rfl
@[simp] theorem coreSetReg_istore (k : Core) (off : Nat) (v : Word) : (k.setReg off v).istore = k.istore := rfl
@[simp] theorem coreSetReg_mx (k : Core) (off : Nat) (v : Word) : (k.setReg off v).mx = k.mx := rfl
@[simp] theorem coreSetReg_v (k : Core) (off : Nat) (v : Word) : (k.setReg off v).v = k.v := rfl
@[simp] theorem coreSetReg_ve (k : Core) (off : Nat) (v : Word) : (k.setReg off v).ve = k.ve := rfl
@[simp] theorem coreSetReg_queues (k : Core) (off : Nat) (v : Word) : (k.setReg off v).queues = k.queues := rfl
@[simp] theorem coreSetReg_serial (k : Core) (off : Nat) (v : Word) : (k.setReg off v).serial = k.serial := rfl
@[simp] theorem coreSetReg_sync0 (k : Core) (off : Nat) (v : Word) : (k.setReg off v).sync0 = k.sync0 := rfl
@[simp] theorem coreSetReg_sOld (k : Core) (off : Nat) (v : Word) : (k.setReg off v).sOld = k.sOld := rfl
@[simp] theorem coreSetReg_caps (k : Core) (off : Nat) (v : Word) : (k.setReg off v).caps = k.caps := rfl
@[simp] theorem coreSetReg_stale (k : Core) (off : Nat) (v : Word) : (k.setReg off v).stale = k.stale := rfl
@[simp] theorem coreSetReg_reen (k : Core) (off : Nat) (v : Word) : (k.setReg off v).reen = k.reen := rfl
@[simp] theorem coreSetReg_issueAt (k : Core) (off : Nat) (v : Word) : (k.setReg off v).issueAt = k.issueAt := rfl
@[simp] theorem coreSetReg_ctxs (k : Core) (off : Nat) (v : Word) : (k.setReg off v).ctxs = k.ctxs := rfl
@[simp] theorem coreSetReg_sw (k : Core) (off : Nat) (v : Word) : (k.setReg off v).sw = k.sw := rfl
@[simp] theorem coreSetReg_units (k : Core) (off : Nat) (v : Word) : (k.setReg off v).units = k.units := rfl
@[simp] theorem coreSetReg_sems (k : Core) (off : Nat) (v : Word) : (k.setReg off v).sems = k.sems := rfl
@[simp] theorem coreSetReg_rwaits (k : Core) (off : Nat) (v : Word) : (k.setReg off v).rwaits = k.rwaits := rfl
@[simp] theorem coreSetReg_wcOrph (k : Core) (off : Nat) (v : Word) : (k.setReg off v).wcOrph = k.wcOrph := rfl
@[simp] theorem coreSetReg_barArr (k : Core) (off : Nat) (v : Word) : (k.setReg off v).barArr = k.barArr := rfl
@[simp] theorem coreSetReg_eps (k : Core) (off : Nat) (v : Word) : (k.setReg off v).eps = k.eps := rfl
@[simp] theorem coreSetReg_steers (k : Core) (off : Nat) (v : Word) : (k.setReg off v).steers = k.steers := rfl
@[simp] theorem coreSetReg_gateRel (k : Core) (off : Nat) (v : Word) : (k.setReg off v).gateRel = k.gateRel := rfl
@[simp] theorem coreSetReg_hall (k : Core) (off : Nat) (v : Word) : (k.setReg off v).hall = k.hall := rfl
@[simp] theorem coreSetReg_hallIn (k : Core) (off : Nat) (v : Word) : (k.setReg off v).hallIn = k.hallIn := rfl
@[simp] theorem coreSetReg_hallOut (k : Core) (off : Nat) (v : Word) : (k.setReg off v).hallOut = k.hallOut := rfl
@[simp] theorem coreSetReg_resp (k : Core) (off : Nat) (v : Word) : (k.setReg off v).resp = k.resp := rfl
@[simp] theorem coreSetReg_svc (k : Core) (off : Nat) (v : Word) : (k.setReg off v).svc = k.svc := rfl
@[simp] theorem coreSetReg_epTurn (k : Core) (off : Nat) (v : Word) : (k.setReg off v).epTurn = k.epTurn := rfl
@[simp] theorem coreSetReg_injAt (k : Core) (off : Nat) (v : Word) : (k.setReg off v).injAt = k.injAt := rfl
@[simp] theorem coreSetReg_rx (k : Core) (off : Nat) (v : Word) : (k.setReg off v).rx = k.rx := rfl
@[simp] theorem coreSetReg_held (k : Core) (off : Nat) (v : Word) : (k.setReg off v).held = k.held := rfl
@[simp] theorem coreSetReg_chans (k : Core) (off : Nat) (v : Word) : (k.setReg off v).chans = k.chans := rfl
@[simp] theorem coreSetReg_defFree (k : Core) (off : Nat) (v : Word) : (k.setReg off v).defFree = k.defFree := rfl
@[simp] theorem coreSetReg_ballast (k : Core) (off : Nat) (v : Word) : (k.setReg off v).ballast = k.ballast := rfl
@[simp] theorem coreSetReg_spanArr (k : Core) (off : Nat) (v : Word) : (k.setReg off v).spanArr = k.spanArr := rfl
@[simp] theorem coreSetReg_tdev (k : Core) (off : Nat) (v : Word) : (k.setReg off v).tdev = k.tdev := rfl
@[simp] theorem coreSetReg_quiet (k : Core) (off : Nat) (v : Word) : (k.setReg off v).quiet = k.quiet := rfl
@[simp] theorem coreSetReg_ceWin (k : Core) (off : Nat) (v : Word) : (k.setReg off v).ceWin = k.ceWin := rfl
@[simp] theorem coreSetReg_ceCnt (k : Core) (off : Nat) (v : Word) : (k.setReg off v).ceCnt = k.ceCnt := rfl
@[simp] theorem coreSetReg_ceRaised (k : Core) (off : Nat) (v : Word) : (k.setReg off v).ceRaised = k.ceRaised := rfl
@[simp] theorem coreSetReg_dbg (k : Core) (off : Nat) (v : Word) : (k.setReg off v).dbg = k.dbg := rfl

/-! ### Counters of a core -/

@[simp] theorem coreBump_mem (k : Core) (cyc off n : Nat) : (k.bump cyc off n).mem = k.mem := by unfold Core.bump; split <;> rfl
@[simp] theorem coreBump_werr (k : Core) (cyc off n : Nat) : (k.bump cyc off n).werr = k.werr := by unfold Core.bump; split <;> rfl
@[simp] theorem coreBump_ceWb (k : Core) (cyc off n : Nat) : (k.bump cyc off n).ceWb = k.ceWb := by unfold Core.bump; split <;> rfl
@[simp] theorem coreBump_old (k : Core) (cyc off n : Nat) : (k.bump cyc off n).old = k.old := by unfold Core.bump; split <;> rfl
@[simp] theorem coreBump_ports (k : Core) (cyc off n : Nat) : (k.bump cyc off n).ports = k.ports := by unfold Core.bump; split <;> rfl
@[simp] theorem coreBump_banks (k : Core) (cyc off n : Nat) : (k.bump cyc off n).banks = k.banks := by unfold Core.bump; split <;> rfl
@[simp] theorem coreBump_patrolAt (k : Core) (cyc off n : Nat) : (k.bump cyc off n).patrolAt = k.patrolAt := by unfold Core.bump; split <;> rfl
@[simp] theorem coreBump_patrolRow (k : Core) (cyc off n : Nat) : (k.bump cyc off n).patrolRow = k.patrolRow := by unfold Core.bump; split <;> rfl
@[simp] theorem coreBump_istore (k : Core) (cyc off n : Nat) : (k.bump cyc off n).istore = k.istore := by unfold Core.bump; split <;> rfl
@[simp] theorem coreBump_mx (k : Core) (cyc off n : Nat) : (k.bump cyc off n).mx = k.mx := by unfold Core.bump; split <;> rfl
@[simp] theorem coreBump_v (k : Core) (cyc off n : Nat) : (k.bump cyc off n).v = k.v := by unfold Core.bump; split <;> rfl
@[simp] theorem coreBump_ve (k : Core) (cyc off n : Nat) : (k.bump cyc off n).ve = k.ve := by unfold Core.bump; split <;> rfl
@[simp] theorem coreBump_queues (k : Core) (cyc off n : Nat) : (k.bump cyc off n).queues = k.queues := by unfold Core.bump; split <;> rfl
@[simp] theorem coreBump_serial (k : Core) (cyc off n : Nat) : (k.bump cyc off n).serial = k.serial := by unfold Core.bump; split <;> rfl
@[simp] theorem coreBump_sync0 (k : Core) (cyc off n : Nat) : (k.bump cyc off n).sync0 = k.sync0 := by unfold Core.bump; split <;> rfl
@[simp] theorem coreBump_sOld (k : Core) (cyc off n : Nat) : (k.bump cyc off n).sOld = k.sOld := by unfold Core.bump; split <;> rfl
@[simp] theorem coreBump_caps (k : Core) (cyc off n : Nat) : (k.bump cyc off n).caps = k.caps := by unfold Core.bump; split <;> rfl
@[simp] theorem coreBump_stale (k : Core) (cyc off n : Nat) : (k.bump cyc off n).stale = k.stale := by unfold Core.bump; split <;> rfl
@[simp] theorem coreBump_reen (k : Core) (cyc off n : Nat) : (k.bump cyc off n).reen = k.reen := by unfold Core.bump; split <;> rfl
@[simp] theorem coreBump_issueAt (k : Core) (cyc off n : Nat) : (k.bump cyc off n).issueAt = k.issueAt := by unfold Core.bump; split <;> rfl
@[simp] theorem coreBump_ctxs (k : Core) (cyc off n : Nat) : (k.bump cyc off n).ctxs = k.ctxs := by unfold Core.bump; split <;> rfl
@[simp] theorem coreBump_sw (k : Core) (cyc off n : Nat) : (k.bump cyc off n).sw = k.sw := by unfold Core.bump; split <;> rfl
@[simp] theorem coreBump_units (k : Core) (cyc off n : Nat) : (k.bump cyc off n).units = k.units := by unfold Core.bump; split <;> rfl
@[simp] theorem coreBump_sems (k : Core) (cyc off n : Nat) : (k.bump cyc off n).sems = k.sems := by unfold Core.bump; split <;> rfl
@[simp] theorem coreBump_rwaits (k : Core) (cyc off n : Nat) : (k.bump cyc off n).rwaits = k.rwaits := by unfold Core.bump; split <;> rfl
@[simp] theorem coreBump_wcOrph (k : Core) (cyc off n : Nat) : (k.bump cyc off n).wcOrph = k.wcOrph := by unfold Core.bump; split <;> rfl
@[simp] theorem coreBump_barArr (k : Core) (cyc off n : Nat) : (k.bump cyc off n).barArr = k.barArr := by unfold Core.bump; split <;> rfl
@[simp] theorem coreBump_eps (k : Core) (cyc off n : Nat) : (k.bump cyc off n).eps = k.eps := by unfold Core.bump; split <;> rfl
@[simp] theorem coreBump_steers (k : Core) (cyc off n : Nat) : (k.bump cyc off n).steers = k.steers := by unfold Core.bump; split <;> rfl
@[simp] theorem coreBump_gateRel (k : Core) (cyc off n : Nat) : (k.bump cyc off n).gateRel = k.gateRel := by unfold Core.bump; split <;> rfl
@[simp] theorem coreBump_hall (k : Core) (cyc off n : Nat) : (k.bump cyc off n).hall = k.hall := by unfold Core.bump; split <;> rfl
@[simp] theorem coreBump_hallIn (k : Core) (cyc off n : Nat) : (k.bump cyc off n).hallIn = k.hallIn := by unfold Core.bump; split <;> rfl
@[simp] theorem coreBump_hallOut (k : Core) (cyc off n : Nat) : (k.bump cyc off n).hallOut = k.hallOut := by unfold Core.bump; split <;> rfl
@[simp] theorem coreBump_resp (k : Core) (cyc off n : Nat) : (k.bump cyc off n).resp = k.resp := by unfold Core.bump; split <;> rfl
@[simp] theorem coreBump_svc (k : Core) (cyc off n : Nat) : (k.bump cyc off n).svc = k.svc := by unfold Core.bump; split <;> rfl
@[simp] theorem coreBump_epTurn (k : Core) (cyc off n : Nat) : (k.bump cyc off n).epTurn = k.epTurn := by unfold Core.bump; split <;> rfl
@[simp] theorem coreBump_injAt (k : Core) (cyc off n : Nat) : (k.bump cyc off n).injAt = k.injAt := by unfold Core.bump; split <;> rfl
@[simp] theorem coreBump_rx (k : Core) (cyc off n : Nat) : (k.bump cyc off n).rx = k.rx := by unfold Core.bump; split <;> rfl
@[simp] theorem coreBump_held (k : Core) (cyc off n : Nat) : (k.bump cyc off n).held = k.held := by unfold Core.bump; split <;> rfl
@[simp] theorem coreBump_chans (k : Core) (cyc off n : Nat) : (k.bump cyc off n).chans = k.chans := by unfold Core.bump; split <;> rfl
@[simp] theorem coreBump_defFree (k : Core) (cyc off n : Nat) : (k.bump cyc off n).defFree = k.defFree := by unfold Core.bump; split <;> rfl
@[simp] theorem coreBump_ballast (k : Core) (cyc off n : Nat) : (k.bump cyc off n).ballast = k.ballast := by unfold Core.bump; split <;> rfl
@[simp] theorem coreBump_spanArr (k : Core) (cyc off n : Nat) : (k.bump cyc off n).spanArr = k.spanArr := by unfold Core.bump; split <;> rfl
@[simp] theorem coreBump_tdev (k : Core) (cyc off n : Nat) : (k.bump cyc off n).tdev = k.tdev := by unfold Core.bump; split <;> rfl
@[simp] theorem coreBump_quiet (k : Core) (cyc off n : Nat) : (k.bump cyc off n).quiet = k.quiet := by unfold Core.bump; split <;> rfl
@[simp] theorem coreBump_ceWin (k : Core) (cyc off n : Nat) : (k.bump cyc off n).ceWin = k.ceWin := by unfold Core.bump; split <;> rfl
@[simp] theorem coreBump_ceCnt (k : Core) (cyc off n : Nat) : (k.bump cyc off n).ceCnt = k.ceCnt := by unfold Core.bump; split <;> rfl
@[simp] theorem coreBump_ceRaised (k : Core) (cyc off n : Nat) : (k.bump cyc off n).ceRaised = k.ceRaised := by unfold Core.bump; split <;> rfl
@[simp] theorem coreBump_dbg (k : Core) (cyc off n : Nat) : (k.bump cyc off n).dbg = k.dbg := by unfold Core.bump; split <;> rfl

/-! ### Error registers of a core -/

@[simp] theorem coreMark_mem (k : Core) (cyc off : Nat) (v : Word) : (k.mark cyc off v).mem = k.mem := rfl
@[simp] theorem coreMark_werr (k : Core) (cyc off : Nat) (v : Word) : (k.mark cyc off v).werr = k.werr := rfl
@[simp] theorem coreMark_ceWb (k : Core) (cyc off : Nat) (v : Word) : (k.mark cyc off v).ceWb = k.ceWb := rfl
@[simp] theorem coreMark_old (k : Core) (cyc off : Nat) (v : Word) : (k.mark cyc off v).old = k.old := rfl
@[simp] theorem coreMark_ports (k : Core) (cyc off : Nat) (v : Word) : (k.mark cyc off v).ports = k.ports := rfl
@[simp] theorem coreMark_banks (k : Core) (cyc off : Nat) (v : Word) : (k.mark cyc off v).banks = k.banks := rfl
@[simp] theorem coreMark_patrolAt (k : Core) (cyc off : Nat) (v : Word) : (k.mark cyc off v).patrolAt = k.patrolAt := rfl
@[simp] theorem coreMark_patrolRow (k : Core) (cyc off : Nat) (v : Word) : (k.mark cyc off v).patrolRow = k.patrolRow := rfl
@[simp] theorem coreMark_istore (k : Core) (cyc off : Nat) (v : Word) : (k.mark cyc off v).istore = k.istore := rfl
@[simp] theorem coreMark_mx (k : Core) (cyc off : Nat) (v : Word) : (k.mark cyc off v).mx = k.mx := rfl
@[simp] theorem coreMark_v (k : Core) (cyc off : Nat) (v : Word) : (k.mark cyc off v).v = k.v := rfl
@[simp] theorem coreMark_ve (k : Core) (cyc off : Nat) (v : Word) : (k.mark cyc off v).ve = k.ve := rfl
@[simp] theorem coreMark_queues (k : Core) (cyc off : Nat) (v : Word) : (k.mark cyc off v).queues = k.queues := rfl
@[simp] theorem coreMark_serial (k : Core) (cyc off : Nat) (v : Word) : (k.mark cyc off v).serial = k.serial := rfl
@[simp] theorem coreMark_sync0 (k : Core) (cyc off : Nat) (v : Word) : (k.mark cyc off v).sync0 = k.sync0 := rfl
@[simp] theorem coreMark_sOld (k : Core) (cyc off : Nat) (v : Word) : (k.mark cyc off v).sOld = k.sOld := rfl
@[simp] theorem coreMark_caps (k : Core) (cyc off : Nat) (v : Word) : (k.mark cyc off v).caps = k.caps := rfl
@[simp] theorem coreMark_stale (k : Core) (cyc off : Nat) (v : Word) : (k.mark cyc off v).stale = k.stale := rfl
@[simp] theorem coreMark_reen (k : Core) (cyc off : Nat) (v : Word) : (k.mark cyc off v).reen = k.reen := rfl
@[simp] theorem coreMark_issueAt (k : Core) (cyc off : Nat) (v : Word) : (k.mark cyc off v).issueAt = k.issueAt := rfl
@[simp] theorem coreMark_ctxs (k : Core) (cyc off : Nat) (v : Word) : (k.mark cyc off v).ctxs = k.ctxs := rfl
@[simp] theorem coreMark_sw (k : Core) (cyc off : Nat) (v : Word) : (k.mark cyc off v).sw = k.sw := rfl
@[simp] theorem coreMark_units (k : Core) (cyc off : Nat) (v : Word) : (k.mark cyc off v).units = k.units := rfl
@[simp] theorem coreMark_sems (k : Core) (cyc off : Nat) (v : Word) : (k.mark cyc off v).sems = k.sems := rfl
@[simp] theorem coreMark_rwaits (k : Core) (cyc off : Nat) (v : Word) : (k.mark cyc off v).rwaits = k.rwaits := rfl
@[simp] theorem coreMark_wcOrph (k : Core) (cyc off : Nat) (v : Word) : (k.mark cyc off v).wcOrph = k.wcOrph := rfl
@[simp] theorem coreMark_barArr (k : Core) (cyc off : Nat) (v : Word) : (k.mark cyc off v).barArr = k.barArr := rfl
@[simp] theorem coreMark_eps (k : Core) (cyc off : Nat) (v : Word) : (k.mark cyc off v).eps = k.eps := rfl
@[simp] theorem coreMark_steers (k : Core) (cyc off : Nat) (v : Word) : (k.mark cyc off v).steers = k.steers := rfl
@[simp] theorem coreMark_gateRel (k : Core) (cyc off : Nat) (v : Word) : (k.mark cyc off v).gateRel = k.gateRel := rfl
@[simp] theorem coreMark_hall (k : Core) (cyc off : Nat) (v : Word) : (k.mark cyc off v).hall = k.hall := rfl
@[simp] theorem coreMark_hallIn (k : Core) (cyc off : Nat) (v : Word) : (k.mark cyc off v).hallIn = k.hallIn := rfl
@[simp] theorem coreMark_hallOut (k : Core) (cyc off : Nat) (v : Word) : (k.mark cyc off v).hallOut = k.hallOut := rfl
@[simp] theorem coreMark_resp (k : Core) (cyc off : Nat) (v : Word) : (k.mark cyc off v).resp = k.resp := rfl
@[simp] theorem coreMark_svc (k : Core) (cyc off : Nat) (v : Word) : (k.mark cyc off v).svc = k.svc := rfl
@[simp] theorem coreMark_epTurn (k : Core) (cyc off : Nat) (v : Word) : (k.mark cyc off v).epTurn = k.epTurn := rfl
@[simp] theorem coreMark_injAt (k : Core) (cyc off : Nat) (v : Word) : (k.mark cyc off v).injAt = k.injAt := rfl
@[simp] theorem coreMark_rx (k : Core) (cyc off : Nat) (v : Word) : (k.mark cyc off v).rx = k.rx := rfl
@[simp] theorem coreMark_held (k : Core) (cyc off : Nat) (v : Word) : (k.mark cyc off v).held = k.held := rfl
@[simp] theorem coreMark_chans (k : Core) (cyc off : Nat) (v : Word) : (k.mark cyc off v).chans = k.chans := rfl
@[simp] theorem coreMark_defFree (k : Core) (cyc off : Nat) (v : Word) : (k.mark cyc off v).defFree = k.defFree := rfl
@[simp] theorem coreMark_ballast (k : Core) (cyc off : Nat) (v : Word) : (k.mark cyc off v).ballast = k.ballast := rfl
@[simp] theorem coreMark_spanArr (k : Core) (cyc off : Nat) (v : Word) : (k.mark cyc off v).spanArr = k.spanArr := rfl
@[simp] theorem coreMark_tdev (k : Core) (cyc off : Nat) (v : Word) : (k.mark cyc off v).tdev = k.tdev := rfl
@[simp] theorem coreMark_quiet (k : Core) (cyc off : Nat) (v : Word) : (k.mark cyc off v).quiet = k.quiet := rfl
@[simp] theorem coreMark_ceWin (k : Core) (cyc off : Nat) (v : Word) : (k.mark cyc off v).ceWin = k.ceWin := rfl
@[simp] theorem coreMark_ceCnt (k : Core) (cyc off : Nat) (v : Word) : (k.mark cyc off v).ceCnt = k.ceCnt := rfl
@[simp] theorem coreMark_ceRaised (k : Core) (cyc off : Nat) (v : Word) : (k.mark cyc off v).ceRaised = k.ceRaised := rfl
@[simp] theorem coreMark_dbg (k : Core) (cyc off : Nat) (v : Word) : (k.mark cyc off v).dbg = k.dbg := rfl

/-! ### Scalar registers of a core -/

@[simp] theorem coreSetS_fresh (k : Core) (cyc at_ ctx n : Nat) (v : Word) : (k.setS cyc at_ ctx n v).fresh = k.fresh := rfl
@[simp] theorem coreSetS_mem (k : Core) (cyc at_ ctx n : Nat) (v : Word) : (k.setS cyc at_ ctx n v).mem = k.mem := rfl
@[simp] theorem coreSetS_werr (k : Core) (cyc at_ ctx n : Nat) (v : Word) : (k.setS cyc at_ ctx n v).werr = k.werr := rfl
@[simp] theorem coreSetS_ceWb (k : Core) (cyc at_ ctx n : Nat) (v : Word) : (k.setS cyc at_ ctx n v).ceWb = k.ceWb := rfl
@[simp] theorem coreSetS_old (k : Core) (cyc at_ ctx n : Nat) (v : Word) : (k.setS cyc at_ ctx n v).old = k.old := rfl
@[simp] theorem coreSetS_ports (k : Core) (cyc at_ ctx n : Nat) (v : Word) : (k.setS cyc at_ ctx n v).ports = k.ports := rfl
@[simp] theorem coreSetS_banks (k : Core) (cyc at_ ctx n : Nat) (v : Word) : (k.setS cyc at_ ctx n v).banks = k.banks := rfl
@[simp] theorem coreSetS_patrolAt (k : Core) (cyc at_ ctx n : Nat) (v : Word) : (k.setS cyc at_ ctx n v).patrolAt = k.patrolAt := rfl
@[simp] theorem coreSetS_patrolRow (k : Core) (cyc at_ ctx n : Nat) (v : Word) : (k.setS cyc at_ ctx n v).patrolRow = k.patrolRow := rfl
@[simp] theorem coreSetS_istore (k : Core) (cyc at_ ctx n : Nat) (v : Word) : (k.setS cyc at_ ctx n v).istore = k.istore := rfl
@[simp] theorem coreSetS_mx (k : Core) (cyc at_ ctx n : Nat) (v : Word) : (k.setS cyc at_ ctx n v).mx = k.mx := rfl
@[simp] theorem coreSetS_v (k : Core) (cyc at_ ctx n : Nat) (v : Word) : (k.setS cyc at_ ctx n v).v = k.v := rfl
@[simp] theorem coreSetS_ve (k : Core) (cyc at_ ctx n : Nat) (v : Word) : (k.setS cyc at_ ctx n v).ve = k.ve := rfl
@[simp] theorem coreSetS_queues (k : Core) (cyc at_ ctx n : Nat) (v : Word) : (k.setS cyc at_ ctx n v).queues = k.queues := rfl
@[simp] theorem coreSetS_serial (k : Core) (cyc at_ ctx n : Nat) (v : Word) : (k.setS cyc at_ ctx n v).serial = k.serial := rfl
@[simp] theorem coreSetS_sync0 (k : Core) (cyc at_ ctx n : Nat) (v : Word) : (k.setS cyc at_ ctx n v).sync0 = k.sync0 := rfl
@[simp] theorem coreSetS_caps (k : Core) (cyc at_ ctx n : Nat) (v : Word) : (k.setS cyc at_ ctx n v).caps = k.caps := rfl
@[simp] theorem coreSetS_stale (k : Core) (cyc at_ ctx n : Nat) (v : Word) : (k.setS cyc at_ ctx n v).stale = k.stale := rfl
@[simp] theorem coreSetS_reen (k : Core) (cyc at_ ctx n : Nat) (v : Word) : (k.setS cyc at_ ctx n v).reen = k.reen := rfl
@[simp] theorem coreSetS_issueAt (k : Core) (cyc at_ ctx n : Nat) (v : Word) : (k.setS cyc at_ ctx n v).issueAt = k.issueAt := rfl
@[simp] theorem coreSetS_ctxs (k : Core) (cyc at_ ctx n : Nat) (v : Word) : (k.setS cyc at_ ctx n v).ctxs = k.ctxs := rfl
@[simp] theorem coreSetS_sw (k : Core) (cyc at_ ctx n : Nat) (v : Word) : (k.setS cyc at_ ctx n v).sw = k.sw := rfl
@[simp] theorem coreSetS_units (k : Core) (cyc at_ ctx n : Nat) (v : Word) : (k.setS cyc at_ ctx n v).units = k.units := rfl
@[simp] theorem coreSetS_sems (k : Core) (cyc at_ ctx n : Nat) (v : Word) : (k.setS cyc at_ ctx n v).sems = k.sems := rfl
@[simp] theorem coreSetS_rwaits (k : Core) (cyc at_ ctx n : Nat) (v : Word) : (k.setS cyc at_ ctx n v).rwaits = k.rwaits := rfl
@[simp] theorem coreSetS_wcOrph (k : Core) (cyc at_ ctx n : Nat) (v : Word) : (k.setS cyc at_ ctx n v).wcOrph = k.wcOrph := rfl
@[simp] theorem coreSetS_barArr (k : Core) (cyc at_ ctx n : Nat) (v : Word) : (k.setS cyc at_ ctx n v).barArr = k.barArr := rfl
@[simp] theorem coreSetS_eps (k : Core) (cyc at_ ctx n : Nat) (v : Word) : (k.setS cyc at_ ctx n v).eps = k.eps := rfl
@[simp] theorem coreSetS_steers (k : Core) (cyc at_ ctx n : Nat) (v : Word) : (k.setS cyc at_ ctx n v).steers = k.steers := rfl
@[simp] theorem coreSetS_gateRel (k : Core) (cyc at_ ctx n : Nat) (v : Word) : (k.setS cyc at_ ctx n v).gateRel = k.gateRel := rfl
@[simp] theorem coreSetS_hall (k : Core) (cyc at_ ctx n : Nat) (v : Word) : (k.setS cyc at_ ctx n v).hall = k.hall := rfl
@[simp] theorem coreSetS_hallIn (k : Core) (cyc at_ ctx n : Nat) (v : Word) : (k.setS cyc at_ ctx n v).hallIn = k.hallIn := rfl
@[simp] theorem coreSetS_hallOut (k : Core) (cyc at_ ctx n : Nat) (v : Word) : (k.setS cyc at_ ctx n v).hallOut = k.hallOut := rfl
@[simp] theorem coreSetS_resp (k : Core) (cyc at_ ctx n : Nat) (v : Word) : (k.setS cyc at_ ctx n v).resp = k.resp := rfl
@[simp] theorem coreSetS_svc (k : Core) (cyc at_ ctx n : Nat) (v : Word) : (k.setS cyc at_ ctx n v).svc = k.svc := rfl
@[simp] theorem coreSetS_epTurn (k : Core) (cyc at_ ctx n : Nat) (v : Word) : (k.setS cyc at_ ctx n v).epTurn = k.epTurn := rfl
@[simp] theorem coreSetS_injAt (k : Core) (cyc at_ ctx n : Nat) (v : Word) : (k.setS cyc at_ ctx n v).injAt = k.injAt := rfl
@[simp] theorem coreSetS_rx (k : Core) (cyc at_ ctx n : Nat) (v : Word) : (k.setS cyc at_ ctx n v).rx = k.rx := rfl
@[simp] theorem coreSetS_held (k : Core) (cyc at_ ctx n : Nat) (v : Word) : (k.setS cyc at_ ctx n v).held = k.held := rfl
@[simp] theorem coreSetS_chans (k : Core) (cyc at_ ctx n : Nat) (v : Word) : (k.setS cyc at_ ctx n v).chans = k.chans := rfl
@[simp] theorem coreSetS_defFree (k : Core) (cyc at_ ctx n : Nat) (v : Word) : (k.setS cyc at_ ctx n v).defFree = k.defFree := rfl
@[simp] theorem coreSetS_ballast (k : Core) (cyc at_ ctx n : Nat) (v : Word) : (k.setS cyc at_ ctx n v).ballast = k.ballast := rfl
@[simp] theorem coreSetS_spanArr (k : Core) (cyc at_ ctx n : Nat) (v : Word) : (k.setS cyc at_ ctx n v).spanArr = k.spanArr := rfl
@[simp] theorem coreSetS_tdev (k : Core) (cyc at_ ctx n : Nat) (v : Word) : (k.setS cyc at_ ctx n v).tdev = k.tdev := rfl
@[simp] theorem coreSetS_quiet (k : Core) (cyc at_ ctx n : Nat) (v : Word) : (k.setS cyc at_ ctx n v).quiet = k.quiet := rfl
@[simp] theorem coreSetS_ceWin (k : Core) (cyc at_ ctx n : Nat) (v : Word) : (k.setS cyc at_ ctx n v).ceWin = k.ceWin := rfl
@[simp] theorem coreSetS_ceCnt (k : Core) (cyc at_ ctx n : Nat) (v : Word) : (k.setS cyc at_ ctx n v).ceCnt = k.ceCnt := rfl
@[simp] theorem coreSetS_ceRaised (k : Core) (cyc at_ ctx n : Nat) (v : Word) : (k.setS cyc at_ ctx n v).ceRaised = k.ceRaised := rfl
@[simp] theorem coreSetS_dbg (k : Core) (cyc at_ ctx n : Nat) (v : Word) : (k.setS cyc at_ ctx n v).dbg = k.dbg := rfl

/-! ### Contexts of a core -/

@[simp] theorem coreModCtx_regs (k : Core) (n : Nat) (f : Ctx → Ctx) : (k.modCtx n f).regs = k.regs := rfl
@[simp] theorem coreModCtx_fresh (k : Core) (n : Nat) (f : Ctx → Ctx) : (k.modCtx n f).fresh = k.fresh := rfl
@[simp] theorem coreModCtx_mem (k : Core) (n : Nat) (f : Ctx → Ctx) : (k.modCtx n f).mem = k.mem := rfl
@[simp] theorem coreModCtx_werr (k : Core) (n : Nat) (f : Ctx → Ctx) : (k.modCtx n f).werr = k.werr := rfl
@[simp] theorem coreModCtx_ceWb (k : Core) (n : Nat) (f : Ctx → Ctx) : (k.modCtx n f).ceWb = k.ceWb := rfl
@[simp] theorem coreModCtx_old (k : Core) (n : Nat) (f : Ctx → Ctx) : (k.modCtx n f).old = k.old := rfl
@[simp] theorem coreModCtx_ports (k : Core) (n : Nat) (f : Ctx → Ctx) : (k.modCtx n f).ports = k.ports := rfl
@[simp] theorem coreModCtx_banks (k : Core) (n : Nat) (f : Ctx → Ctx) : (k.modCtx n f).banks = k.banks := rfl
@[simp] theorem coreModCtx_patrolAt (k : Core) (n : Nat) (f : Ctx → Ctx) : (k.modCtx n f).patrolAt = k.patrolAt := rfl
@[simp] theorem coreModCtx_patrolRow (k : Core) (n : Nat) (f : Ctx → Ctx) : (k.modCtx n f).patrolRow = k.patrolRow := rfl
@[simp] theorem coreModCtx_istore (k : Core) (n : Nat) (f : Ctx → Ctx) : (k.modCtx n f).istore = k.istore := rfl
@[simp] theorem coreModCtx_mx (k : Core) (n : Nat) (f : Ctx → Ctx) : (k.modCtx n f).mx = k.mx := rfl
@[simp] theorem coreModCtx_v (k : Core) (n : Nat) (f : Ctx → Ctx) : (k.modCtx n f).v = k.v := rfl
@[simp] theorem coreModCtx_ve (k : Core) (n : Nat) (f : Ctx → Ctx) : (k.modCtx n f).ve = k.ve := rfl
@[simp] theorem coreModCtx_queues (k : Core) (n : Nat) (f : Ctx → Ctx) : (k.modCtx n f).queues = k.queues := rfl
@[simp] theorem coreModCtx_serial (k : Core) (n : Nat) (f : Ctx → Ctx) : (k.modCtx n f).serial = k.serial := rfl
@[simp] theorem coreModCtx_sync0 (k : Core) (n : Nat) (f : Ctx → Ctx) : (k.modCtx n f).sync0 = k.sync0 := rfl
@[simp] theorem coreModCtx_sOld (k : Core) (n : Nat) (f : Ctx → Ctx) : (k.modCtx n f).sOld = k.sOld := rfl
@[simp] theorem coreModCtx_caps (k : Core) (n : Nat) (f : Ctx → Ctx) : (k.modCtx n f).caps = k.caps := rfl
@[simp] theorem coreModCtx_stale (k : Core) (n : Nat) (f : Ctx → Ctx) : (k.modCtx n f).stale = k.stale := rfl
@[simp] theorem coreModCtx_reen (k : Core) (n : Nat) (f : Ctx → Ctx) : (k.modCtx n f).reen = k.reen := rfl
@[simp] theorem coreModCtx_issueAt (k : Core) (n : Nat) (f : Ctx → Ctx) : (k.modCtx n f).issueAt = k.issueAt := rfl
@[simp] theorem coreModCtx_sw (k : Core) (n : Nat) (f : Ctx → Ctx) : (k.modCtx n f).sw = k.sw := rfl
@[simp] theorem coreModCtx_units (k : Core) (n : Nat) (f : Ctx → Ctx) : (k.modCtx n f).units = k.units := rfl
@[simp] theorem coreModCtx_sems (k : Core) (n : Nat) (f : Ctx → Ctx) : (k.modCtx n f).sems = k.sems := rfl
@[simp] theorem coreModCtx_rwaits (k : Core) (n : Nat) (f : Ctx → Ctx) : (k.modCtx n f).rwaits = k.rwaits := rfl
@[simp] theorem coreModCtx_wcOrph (k : Core) (n : Nat) (f : Ctx → Ctx) : (k.modCtx n f).wcOrph = k.wcOrph := rfl
@[simp] theorem coreModCtx_barArr (k : Core) (n : Nat) (f : Ctx → Ctx) : (k.modCtx n f).barArr = k.barArr := rfl
@[simp] theorem coreModCtx_eps (k : Core) (n : Nat) (f : Ctx → Ctx) : (k.modCtx n f).eps = k.eps := rfl
@[simp] theorem coreModCtx_steers (k : Core) (n : Nat) (f : Ctx → Ctx) : (k.modCtx n f).steers = k.steers := rfl
@[simp] theorem coreModCtx_gateRel (k : Core) (n : Nat) (f : Ctx → Ctx) : (k.modCtx n f).gateRel = k.gateRel := rfl
@[simp] theorem coreModCtx_hall (k : Core) (n : Nat) (f : Ctx → Ctx) : (k.modCtx n f).hall = k.hall := rfl
@[simp] theorem coreModCtx_hallIn (k : Core) (n : Nat) (f : Ctx → Ctx) : (k.modCtx n f).hallIn = k.hallIn := rfl
@[simp] theorem coreModCtx_hallOut (k : Core) (n : Nat) (f : Ctx → Ctx) : (k.modCtx n f).hallOut = k.hallOut := rfl
@[simp] theorem coreModCtx_resp (k : Core) (n : Nat) (f : Ctx → Ctx) : (k.modCtx n f).resp = k.resp := rfl
@[simp] theorem coreModCtx_svc (k : Core) (n : Nat) (f : Ctx → Ctx) : (k.modCtx n f).svc = k.svc := rfl
@[simp] theorem coreModCtx_epTurn (k : Core) (n : Nat) (f : Ctx → Ctx) : (k.modCtx n f).epTurn = k.epTurn := rfl
@[simp] theorem coreModCtx_injAt (k : Core) (n : Nat) (f : Ctx → Ctx) : (k.modCtx n f).injAt = k.injAt := rfl
@[simp] theorem coreModCtx_rx (k : Core) (n : Nat) (f : Ctx → Ctx) : (k.modCtx n f).rx = k.rx := rfl
@[simp] theorem coreModCtx_held (k : Core) (n : Nat) (f : Ctx → Ctx) : (k.modCtx n f).held = k.held := rfl
@[simp] theorem coreModCtx_chans (k : Core) (n : Nat) (f : Ctx → Ctx) : (k.modCtx n f).chans = k.chans := rfl
@[simp] theorem coreModCtx_defFree (k : Core) (n : Nat) (f : Ctx → Ctx) : (k.modCtx n f).defFree = k.defFree := rfl
@[simp] theorem coreModCtx_ballast (k : Core) (n : Nat) (f : Ctx → Ctx) : (k.modCtx n f).ballast = k.ballast := rfl
@[simp] theorem coreModCtx_spanArr (k : Core) (n : Nat) (f : Ctx → Ctx) : (k.modCtx n f).spanArr = k.spanArr := rfl
@[simp] theorem coreModCtx_tdev (k : Core) (n : Nat) (f : Ctx → Ctx) : (k.modCtx n f).tdev = k.tdev := rfl
@[simp] theorem coreModCtx_quiet (k : Core) (n : Nat) (f : Ctx → Ctx) : (k.modCtx n f).quiet = k.quiet := rfl
@[simp] theorem coreModCtx_ceWin (k : Core) (n : Nat) (f : Ctx → Ctx) : (k.modCtx n f).ceWin = k.ceWin := rfl
@[simp] theorem coreModCtx_ceCnt (k : Core) (n : Nat) (f : Ctx → Ctx) : (k.modCtx n f).ceCnt = k.ceCnt := rfl
@[simp] theorem coreModCtx_ceRaised (k : Core) (n : Nat) (f : Ctx → Ctx) : (k.modCtx n f).ceRaised = k.ceRaised := rfl
@[simp] theorem coreModCtx_dbg (k : Core) (n : Nat) (f : Ctx → Ctx) : (k.modCtx n f).dbg = k.dbg := rfl

/-! ### The work of a core -/

@[simp] theorem onCore_c (w : Wk) (f : Core → Core) : (w.onCore f).c = f w.c := rfl
@[simp] theorem onCore_env (w : Wk) (f : Core → Core) : (w.onCore f).env = w.env := rfl
@[simp] theorem onCore_evs (w : Wk) (f : Core → Core) : (w.onCore f).evs = w.evs := rfl
@[simp] theorem wkSetReg_c (w : Wk) (off : Nat) (v : Word) : (w.setReg off v).c = w.c.setReg off v := rfl
@[simp] theorem wkSetReg_env (w : Wk) (off : Nat) (v : Word) : (w.setReg off v).env = w.env := rfl
@[simp] theorem wkSetReg_evs (w : Wk) (off : Nat) (v : Word) : (w.setReg off v).evs = w.evs := rfl
@[simp] theorem raise_c (w : Wk) (e : Ev) : (w.raise e).c = w.c := rfl
@[simp] theorem raise_env (w : Wk) (e : Ev) : (w.raise e).env = w.env := rfl
@[simp] theorem raise_evs (w : Wk) (e : Ev) : (w.raise e).evs = w.evs ++ [e] := rfl

/-! ### Reads after writes -/

theorem setReg_reg (d : Die) (off : Nat) (v : Word) (o : Nat) : (d.setReg off v).reg o = if o = off then v else d.reg o := by
  unfold Die.reg Die.setReg
  split
  · next h => rw [h]; simp
  · next h => exact tget_tset_ne _ _ _ _ _ h

theorem coreSetReg_reg (k : Core) (off : Nat) (v : Word) (o : Nat) : (k.setReg off v).reg o = if o = off then v else k.reg o := by
  unfold Core.reg Core.setReg
  split
  · next h => rw [h]; simp
  · next h => exact tget_tset_ne _ _ _ _ _ h

theorem setCore_core (d : Die) (n : Nat) (k : Core) (m : Nat) : (d.setCore n k).core m = if m = n then k else d.core m := by
  simp [Die.core, Die.setCore, tget_tset]

theorem coreModCtx_ctx (k : Core) (n : Nat) (f : Ctx → Ctx) (m : Nat) : (k.modCtx n f).ctx m = if m = n then f (k.ctx n) else k.ctx m := by
  simp [Core.ctx, Core.modCtx, tget_tmod]

theorem modMod_mod (d : Die) (n : Nat) (f : Module → Module) (m : Nat) : (d.modMod n f).mod m = if m = n then f (d.mod n) else d.mod m := by
  simp [Die.mod, Die.modMod, tget_tmod]

theorem modBar_bar (d : Die) (n : Nat) (f : Bar → Bar) (m : Nat) : (d.modBar n f).bar m = if m = n then f (d.bar n) else d.bar m := by
  simp [Die.bar, Die.modBar, tget_tmod]

theorem modRouter_router (d : Die) (n : Nat) (f : Router → Router) (m : Nat) :
    (d.modRouter n f).router m = if m = n then f (d.router n) else d.router m := by
  simp [Die.router, Die.modRouter, tget_tmod]

@[simp] theorem withCore_coreAt (s : State) (c : CoreCode) (k : Core) : (s.withCore c k).coreAt c = k := by
  simp [State.coreAt, setCore_core]

theorem withCore_coreAt_ne (s : State) {c c' : CoreCode} (k : Core) (h : c' ≠ c) : (s.withCore c k).coreAt c' = s.coreAt c' := by
  have : c'.toNat ≠ c.toNat := fun e => h (BitVec.eq_of_toNat_eq e)
  simp [State.coreAt, setCore_core, this]

end Sys2Proof.Machine
end

