-- ==== Sys2Proof/WellFormed.lean ====
section
/-! DEFINITION. Which commands can come: a core code is that of a logical position, a request names a port and a way the die has, a
line operation names 1 to 8 lines with the enables its form has, a sensor sample has 36 readings, a fuse array has its shape. -/

namespace Sys2Proof

/-- A core code of a logical position: rows and columns 0 to 47 (R12, R515). -/
def codeOk (c : CoreCode) : Bool := Machine.isCore c.toNat

/-- A request by a port A or B, from the Cellar, a module or a core of a logical position (R448, R500). -/
def reqOk (q : Machine.Req) : Bool :=
  decide (q.port < 2) && (match q.via with
    | .cellar => true
    | .module m => decide (m < 48)
    | .core c => codeOk c)

/-- One to eight lines of eight words (R501). -/
def linesOk (l : List (List (BitVec 64))) : Bool := decide (1 ≤ l.length) && decide (l.length ≤ 8) && l.all (fun x => x.length == 8)

/-- A unit that a finding or a fuse marks: a core or cube-column of a physical position, a module, or a bank (R426, R446). -/
def findingOk (x : Machine.Finding) : Bool :=
  decide (x.kind < 4) && decide (x.prow < 48) && decide (x.pcol < 52)

/-- A fuse array: 16 base voltages, absent rows below 48 (R426). -/
def fusesOk (f : Machine.Fuses) : Bool := f.vbase.length == 16 && f.absent.all (fun r => decide (r < 48)) && f.defects.all findingOk

/-- A shaper of a core of a logical position, or a module's (R220). -/
def shaperOk : Machine.ShaperPlace → Bool
  | .endpoint c _ => codeOk c
  | .channel c _ => codeOk c
  | .hallway c => codeOk c
  | .transit _ => true

/-- Is a command one that can come? [DESIGN CHOICE, log 5] -/
def wellFormed : Instr → Bool
  | .registerWrite q _ => reqOk q
  | .rcRead q => reqOk q
  | .lowWordRead q => reqOk q
  | .reservedOpcode c => codeOk c
  | .nop c => codeOk c
  | .endInstr c => codeOk c
  | .salu c => codeOk c
  | .sali c => codeOk c
  | .loop c => codeOk c
  | .lctl c => codeOk c
  | .brc c => codeOk c
  | .pred c => codeOk c
  | .shape c => codeOk c
  | .shp c => codeOk c
  | .srd c => codeOk c
  | .ctxsw c => codeOk c
  | .firingBlockFire c => codeOk c
  | .fbTimeout c _ => codeOk c
  | .ctxLoaded c _ => codeOk c
  | .ctxStart c _ => codeOk c
  | .ctxStop c _ => codeOk c
  | .ctxClear c _ => codeOk c
  | .contextStopped c _ => codeOk c
  | .seqSwitch c _ => codeOk c
  | .switchDrained c _ => codeOk c
  | .unitDrain c _ => codeOk c
  | .unitDrained c _ => codeOk c
  | .unitForce c _ => codeOk c
  | .unitReen c _ => codeOk c
  | .mxm c => codeOk c
  | .arrayOperation c => codeOk c
  | .rampPeriodEnd c _ => codeOk c
  | .mxcfg c => codeOk c
  | .mxb c => codeOk c
  | .mxsc c => codeOk c
  | .mxld c => codeOk c
  | .mxd c => codeOk c
  | .mxew c => codeOk c
  | .mvx c => codeOk c
  | .mvcfg c => codeOk c
  | .mvm c => codeOk c
  | .vop c => codeOk c
  | .vld c => codeOk c
  | .vst c => codeOk c
  | .vred c => codeOk c
  | .vms c => codeOk c
  | .vamx c => codeOk c
  | .amaxWrite c _ _ => codeOk c
  | .remoteAccess c => codeOk c
  | .ceWriteBack c => codeOk c
  | .patrolRead c _ => codeOk c
  | .bankPowerWrite c _ _ => codeOk c
  | .bankWakeDone c _ _ => codeOk c
  | .bankOffDone c _ _ => codeOk c
  | .handleWrite c _ _ _ _ => codeOk c
  | .windowWrite c _ _ _ => codeOk c
  | .ssend c => codeOk c
  | .srecv c => codeOk c
  | .sstat c => codeOk c
  | .flitAdmit c => codeOk c
  | .routerHop c _ => codeOk c
  | .vc2AgedGrant c _ => codeOk c
  | .reductionCombine c _ => codeOk c
  | .flitDelivery c => codeOk c
  | .joinWaitExpiry c _ => codeOk c
  | .ackReceive c => codeOk c
  | .steerForward c _ => codeOk c
  | .shaperWrite p _ => shaperOk p
  | .cellarPortFlit => true
  | .ddef c => codeOk c
  | .dgo c => codeOk c
  | .dmaRequestAdmit c _ => codeOk c
  | .dmaReadResponse c => codeOk c
  | .dmaWriteAck c => codeOk c
  | .dgoComplete c _ => codeOk c
  | .descriptorWord0Write c _ _ _ => codeOk c
  | .descriptorWordWrite c _ _ _ _ => codeOk c
  | .rangeEntryWrite c _ _ _ _ => codeOk c
  | .ssig c => codeOk c
  | .swait c => codeOk c
  | .semWaitTimeout c _ => codeOk c
  | .sinit c => codeOk c
  | .wtake c => codeOk c
  | .wset c => codeOk c
  | .sbar c => codeOk c
  | .barrierRelease _ => true
  | .sig c => codeOk c
  | .wait c => codeOk c
  | .waitReply c => codeOk c
  | .take c => codeOk c
  | .takeReply c => codeOk c
  | .semMapWrite c _ _ _ => codeOk c
  | .semValWrite c _ _ _ => codeOk c
  | .barrierChannelEnable _ _ => true
  | .gateCtlWrite c _ _ => codeOk c
  | .gateRowsRelease c _ => codeOk c
  | .gateDeadlineRelease c _ => codeOk c
  | .moduleTraining _ ok _ _ => decide (ok < 4096)
  | .moduleEnWrite _ _ => true
  | .retrain _ => true
  | .retrainComplete _ _ => true
  | .linkFlitSend _ => true
  | .nullFlitSend _ => true
  | .linkFlitReceive _ _ => true
  | .transitAdmit _ => true
  | .replayRequest _ => true
  | .replayTimeout _ => true
  | .dieAddrWrite _ => true
  | .hubResponse _ => true
  | .hubTimeout n => decide (n < 48 * 1024)
  | .connectionEnable _ _ => true
  | .transportPacketReceive _ => true
  | .transportAckTimer _ => true
  | .transportRetransmitTimeout _ => true
  | .coreSpanArrival c => codeOk c
  | .spanQuietExpiry c => codeOk c
  | .spanWdogExpiry => true
  | .fenceArrival => true
  | .commitRelease => true
  | .goRelease => true
  | .rollbackEnter => true
  | .drainRelease _ _ => true
  | .restoreRelease => true
  | .jobStop _ => true
  | .markReply _ => true
  | .holdReply _ => true
  | .rewindReply _ _ _ => true
  | .logReplyTimeout _ => true
  | .spanStop q => reqOk q
  | .spanRoll q => reqOk q
  | .spanFail q c => reqOk q && codeOk c
  | .spanLate q => reqOk q
  | .thermostatControlPoint => true
  | .avsVoutAck _ => true
  | .avsSettleDone => true
  | .glideComplete => true
  | .regionCtlWrite _ => true
  | .regionWakeComplete _ => true
  | .regionSleepComplete _ => true
  | .envelopeInterval => true
  | .powerStep => true
  | .learnBin => true
  | .sensorSample readings => readings.length == 36
  | .thermalTrip _ => true
  | .shutdownComplete => true
  | .refclkLoss => true
  | .aonLoss => true
  | .aonRestore => true
  | .ageingPeriod _ => true
  | .calibrationRead _ _ => true
  | .porstRelease f _ _ _ => fusesOk f
  | .porstAssert => true
  | .referencePresent _ => true
  | .flashImageRead _ => true
  | .powerGoodRise => true
  | .powerGoodFall _ => true
  | .selfTest finds _ => finds.all findingOk
  | .repair => true
  | .linkTraining => true
  | .coreFirmware => true
  | .firmwareCheck => true
  | .siteCommit q _ => reqOk q
  | .siteRegisterWrite q n _ => reqOk q && decide (n < Machine.siteRegs.length)
  | .loadGo q _ => reqOk q
  | .loadReadDone _ _ => true
  | .dlAcquire q _ _ _ => reqOk q
  | .dlRenew q _ => reqOk q
  | .dlRelease q => reqOk q
  | .dlReinit q => reqOk q
  | .leaseExpiry => true
  | .waiterTimeout => true
  | .jobStart q _ _ => reqOk q
  | .jobPause q => reqOk q
  | .jobResume q => reqOk q
  | .jobKill q => reqOk q
  | .jobUnload q => reqOk q
  | .jobScrub q => reqOk q
  | .scrubComplete => true
  | .spdmRequest q _ _ => reqOk q
  | .getVersion _ => true
  | .getCapabilities _ => true
  | .negotiateAlgorithms _ => true
  | .getDigests _ => true
  | .getCertificate _ => true
  | .challenge _ => true
  | .getMeasurements _ => true
  | .telemetryIndexWrite _ => true
  | .telemetryRead _ => true
  | .epoArm _ => true
  | .epoFire _ => true
  | .epoArmExpiry => true
  | .entdaa _ => true
  | .setdasa _ => true
  | .setnewda _ => true
  | .rstdaa => true
  | .getpid => true
  | .getbcr => true
  | .getdcr => true
  | .getstatus => true
  | .annexCtlWrite c _ => codeOk c
  | .faultLogWrite => true
  | .ceStorm c => codeOk c
  | .read32 q => reqOk q
  | .write32 q _ _ _ => reqOk q
  | .lineRead q _ => reqOk q
  | .lineWrite q lines enables => reqOk q && linesOk lines && enables.length == min 6 lines.length
  | .lineWriteBits q lines enables => reqOk q && linesOk lines && linesOk enables && enables.length == lines.length
  | .dbgHalt c => codeOk c
  | .debugHaltEffect c => codeOk c
  | .dbgStep c => codeOk c
  | .dbgResume c => codeOk c
  | .haltAll => true
  | .resumeAll => true
  | .tapReset => true
  | .extest bumps cells => bumps.length == cells.length
  | .samplePreload bumps cells => bumps.length == cells.length
  | .idcode => true
  | .bypass => true
  | .powerGoodTimeout => true
  | .peerPhyRetrain _ => true
  | .idleFlitSend _ => true
  | .pgAonAssertion => true

end Sys2Proof
end

