-- ==== Sys2Proof/Tests/Slice0.lean ====
section
/-! SUPPORT. The model's own tests: for each statement with hypotheses a theorem that shows states and operands which meet them, each clause in
turn; ill-formed commands that the check refuses; and a few single steps whose results the specification gives. -/

open Sys2Proof Sys2Proof.Machine

namespace Sys2Proof.Tests

set_option Elab.async false

/-- A die that runs: out of reset, in phase READY with its site committed, every row present, region 0 on. -/
def tDie : Die :=
  { Die.reset with
    boot := { Boot.reset with porst := false, refOk := true, firstCommit := true }
    regs := [(0x10000, 0x803000), (0x10010, 0xFFFFFFFF), (0x10014, 0xFFFF), (0x140000, 0x8000000A), (0x140034, 0x80000000)]
    therm := { Therm.reset with regions := [(0, .on)] }
    pins := { Pins.reset with pwrEn := .high } }

/-- The block around it. -/
def tSt : State := ⟨tDie, .reset, .reset, []⟩

/-- The block around a die. -/
def tOf (d : Die) : State := ⟨d, .reset, .reset, []⟩

/-- A request of control port A for a word of die control. -/
def tReq (off : Nat) : Req := ⟨.cellar, 0, 0xFFFF, 0, BitVec.ofNat 64 (0xFFFF000100000000 + off)⟩

/-- A die whose Doorlatch control port A holds. -/
def tHeld : Die := { tDie with latch := { Latch.reset with held := true, left := 100 } }

/-- A core whose banks of all three memories are on, with one word of program and context 0 running. -/
def tCore : Core :=
  { Core.reset with
    banks := (List.range 16).map (fun i => (bankKey 0 i, .on)) ++ (List.range 16).map (fun i => (bankKey 1 i, .on)) ++
      (List.range 8).map (fun i => (bankKey 2 i, .on))
    regs := [(0x108, 0xFFF0000)]
    ctxs := [(0, { Ctx.reset with state := .running, inblk := true })] }

/-- The die with that core at position 0. -/
def tCores : Die := { tDie with cores := [(0, tCore)] }

/-! ### The block, its bus and its test access port -/

/-- A command waits at the front of the queue. -/
theorem test_front_command_hyp : ({ tSt with pending := [.idcode, .bypass] }).pending = .idcode :: [.bypass] := by decide +kernel

theorem test_idle_hyp : tSt.pending = [] := by decide +kernel

/-- Each reach of a command, with a state in which the command finds its place shut. -/
theorem test_reach_hyps :
    (reachOf (.nop 0) = .core 0 ∧ (tOf { tDie with regs := [] }).die.coreOn 0 = false) ∧
    (reachOf .powerStep = .mesh ∧ State.reset.die.meshOn = false) ∧
    (reachOf .repair = .control ∧ State.reset.die.boot.porst = true) ∧ reachOf .idcode = .tap ∧ reachOf .getpid = .bus ∧
    reachOf .porstAssert = .reset := by decide +kernel

/-- States that meet the invariant, held in reset and running, and a step from one. -/
theorem test_held_in_reset_hyps : HeldInReset State.reset ∧ step State.reset = .next State.reset ∧ HeldInReset tSt :=
  ⟨fun _ => ⟨rfl, .inr rfl⟩, rfl, fun h => by cases h⟩

theorem test_tap_hyps : tSt.die.aonOn = true ∧ Instr.idcode ≠ .tapReset ∧ reachOf .idcode = .tap ∧
    (tOf { tDie with pins := .unpowered }).die.aonOn = false := by decide +kernel

theorem test_bus_hyps : tSt.die.busOn = true ∧ ({ tSt with bus := { tSt.bus with dynamic := some 8 } }).bus.dynamic = some 8 ∧
    tSt.bus.dynamic = none := by decide +kernel

/-- An arm in force at its last tick, one that lapsed a tick ago, and a die that has not tripped. -/
theorem test_epo_hyps : tSt.die.busOn = true ∧ bit (tSt.die.reg 0x100064) 31 = false ∧ tSt.epoArmed = false ∧
    ({ tSt with bus := { tSt.bus with armed := some 0 } }).bus.armed = some 0 ∧ tSt.die.aon.toNat ≤ 0 ∧
    0 < (tOf { tDie with aon := 1 }).die.aon.toNat := by decide +kernel

theorem test_telemetry_hyps : tSt.die.busOn = true ∧ 0 < (255 : BitVec 8).toNat ∧ tSt.die.shadow = [] ∧ teleReg 1 = some 4 ∧
    dieBlock 4 ≠ some true ∧ teleReg 0xA = some 0x100024 ∧ dieBlock 0x100024 = some true ∧ teleReg 0xFFFF = none ∧
    tSt.die.meshOn = true ∧ State.reset.die.meshOn = false := by decide +kernel

/-! ### The memories of a core -/

/-- The last line of each memory, in each layout that the statement speaks of. -/
theorem test_layout_hyps :
    (∀ m, m < 3 → memSize false m - 64 < memSize false m ∧ (memSize false m - 64) % 64 = 0) ∧
    (∀ m, m < 3 → memSize true m - 64 < memSize true m ∧ (memSize true m - 64) % 64 = 0) ∧
    (∀ m, m < 3 → numBanks false m - 1 < numBanks false m ∧ 0 < memSize false m / 64 / numBanks false m) ∧
    (true && false) = false ∧ (false && true) = false := by decide +kernel

/-- A core whose memories are in their form, with a bank that serves the last byte of its Larder. -/
theorem test_byte_write_hyps : ((tOf tCores).wk 0).c.memWf = true ∧ (tCore.annex && ((tOf tCores).wk 0).env.smallPantry) = false ∧
    memSize ((tOf tCores).wk 0).env.smallPantry 1 - 1 < memSize ((tOf tCores).wk 0).env.smallPantry 1 ∧
    (tCore.bank 1 (((tOf tCores).wk 0).bankAt 1 (memSize ((tOf tCores).wk 0).env.smallPantry 1 - 1))).serves = true ∧
    (∀ k, (tget OldWord.none tCore.old k).at_ ≠ tCores.cyc + 1) :=
  ⟨by decide +kernel, by decide +kernel, by decide +kernel, by decide +kernel, fun _ => by change (0 : Nat) ≠ 1; decide⟩

/-- A bank that is off, and an offset inside and one outside a buffer. -/
theorem test_bank_off_hyps : (Core.reset.bank 0 (((tOf tDie).wk 0).bankAt 0 0)).serves = false ∧
    (⟨0, 0, 64⟩ : Buf).has 63 = true ∧ (⟨0, 0, 64⟩ : Buf).has 64 = false := by decide +kernel

/-! ### Service requests -/

/-- Every kind of place, and every check of R502 at its turn. -/
theorem test_service_place_hyps :
    tDie.place 0x102000000 = .nothing none ∧ tDie.place 0x100000000000 = .stack 0 ∧ tDie.place (tReq 0x80000).addr = .die 0x80000 ∧
    tDie.place 0x10 = .mem 0 0 0x10 ∧ fld (tReq 0x80001).addr 1 0 ≠ 0 ∧ fld (tReq 0x80000).addr 1 0 = 0 ∧ dieBlock 0x80000 = some true ∧
    State.reset.die.meshOn = false ∧ tDie.meshOn = true ∧ (tReq 0).byPort = true ∧ (⟨.core 0, 0, 0, 0, 0⟩ : Req).byPort = false ∧
    (tReq 0).guarded (.die 0x1C0000) = false ∧ (tReq 0).guarded (.die 0x80000) = true := by decide +kernel

/-- The checks of a core's place: no core, a row that is absent, a region that is off, a job in its scrub or on hold. -/
theorem test_service_core_hyps :
    isCore 63 = false ∧ (isCore 0 = true ∧ State.reset.die.rowPresent 0 = false) ∧
    (isCore 12 = true ∧ tDie.rowPresent 0 = true ∧ tDie.regionOn (regionOf 12) = false) ∧ tDie.coreOn 0 = true ∧ tDie.jobCore 0 = false ∧
    ({ tDie with job := { Job.none with use := [1], state := 6 } }).jobCore 0 = true ∧ tHeld.latch.held = true ∧ tHeld.latch.port = 0 := by
  decide +kernel

/-- A die that serves: requests that a check turns away, of a word and of a line. -/
theorem test_service_refusal_hyps :
    Serves (tOf tDie) tDie (tReq 0x80001) ∧ Serves (tOf tDie) tDie (tReq 0x80000) ∧ tDie.wordCheck (tReq 0x80001) true ≠ St.OK ∧ tDie.wordCheck (tReq 0x80000) false ≠ St.OK ∧
    tDie.lineCheck (tReq 0x80000) 8 true ≠ St.OK ∧ tDie.lineCheck (tReq 0x80000) 1 false ≠ St.OK := by decide +kernel

/-- A word of each kind that a request may write or read in die control. -/
theorem test_die_word_hyps :
    Serves (tOf tHeld) tHeld (tReq 0x140004) ∧ Serves (tOf tHeld) tHeld (tReq 0x240038) ∧ Serves (tOf tHeld) tHeld (tReq 0x240008) ∧
    Serves (tOf tHeld) tHeld (tReq 0x100048) ∧ tHeld.place (tReq 0x140004).addr = .die 0x140004 ∧ (0x140004, 0x80000000) ∈ w1cRegs ∧
    tHeld.wordCheck (tReq 0x140004) false = St.OK ∧ tHeld.place (tReq 0x240038).addr = .die 0x240038 ∧
    tHeld.wordCheck (tReq 0x240038) false = St.OK ∧ tHeld.wordCheck (tReq 0x240008) true = St.OK ∧ dieRc 0x240008 = true ∧
    Place.lowWord (.die 0x100048) = true ∧ tHeld.place ((tReq 0x100048).addr + 4) = .die 0x10004C ∧
    tHeld.wordCheck (tReq 0x100048) true = St.OK ∧ tHeld.shadow = [] ∧ dieRc 0x80000 = false ∧ Place.lowWord (.die 0x80000) = false := by
  decide +kernel

/-- An RC register with an event of this cycle, and one without. -/
theorem test_fresh_hyps :
    let d := { tHeld with regs := (0x240008, 5) :: tHeld.regs, fresh := [(0x240008, ⟨0, 3, 2⟩)] }
    Serves (tOf d) d (tReq 0x240008) ∧ dieRc 0x240008 = true ∧ tget .none d.fresh 0x240008 = ⟨0, 3, 2⟩ ∧ d.cyc = 0 ∧ (2 : Word) ≠ 0 ∧
    freshOf tHeld.fresh tHeld.cyc 0x240008 = 0 ∧ d.wordCheck (tReq 0x240008) true = St.OK ∧ d.shadow = [] := by decide +kernel

/-- A requester whose latch holds a high word. -/
theorem test_shadow_hyp :
    ({ tHeld with shadow := [((tReq 0x10004C).shadowKey 0x10010004C, 7)] }).shadow.find?
      (fun e => e.1 == (tReq 0x10004C).shadowKey (fld (tReq 0x10004C).addr 47 0)) = some ((tReq 0x10004C).shadowKey 0x10010004C, 7) := by
  decide +kernel

/-- A request of control port A by module 3 for a word of core 0's Larder. -/
def tMem : Req := ⟨.module 3, 0, 0xFFFF, 0, 0xFFFF000000000040⟩

/-- A die with that module ACTIVE, core 0 with these banks of its Larder, and the Doorlatch with the port. -/
def tBanks (b : Bank) : Die :=
  { tHeld with regs := (modOff 3 1, 3) :: tHeld.regs, cores := [(0, { tCore with banks := (List.range 16).map (fun i => (bankKey 0 i, b)) })] }

/-- A word and a line of a core memory whose banks serve, for a port that holds the Doorlatch. -/
theorem test_core_memory_hyps :
    Serves (tOf (tBanks .on)) (tBanks .on) tMem ∧ (tBanks .on).place tMem.addr = .mem 0 0 0x40 ∧ isCore 0 = true ∧
    (tBanks .on).wordCheck tMem true = St.OK ∧ (tBanks .on).wordCheck tMem false = St.OK ∧ (tBanks .on).lineCheck tMem 1 true = St.OK ∧
    (tBanks .on).lineCheck tMem 1 false = St.OK ∧ (tBanks .on).shadow = [] ∧ ((tBanks .on).wkAt 0).Clean 0 (offsets 0x40 64) := by
  decide +kernel

/-- A write that a window of its core turns away, and a place that is no core memory. -/
theorem test_denied_hyps :
    tMem.byPort = true ∧ St.WIN_DENIED ≠ St.OK ∧ (tBanks .on).place tMem.addr = .mem 0 0 0x40 ∧ tDie.place (tReq 0x80000).addr = .die 0x80000 ∧
    ((tBanks .on).wordCheck { tMem with via := .core 5 } true = St.WIN_DENIED ∧ (⟨.core 5, 0, 0, 0, 0⟩ : Req).byPort = false) := by decide +kernel

/-- Requests for die 7: by a module before the die has an address, by one and by the Cellar with no route, and by the Cellar with one. -/
theorem test_other_die_hyps :
    let q (v : Via) : Req := ⟨v, 1, 0, 5, 0x0007000000000040⟩
    let d (r : List (Nat × Word)) : Die := { tDie with regs := (modOff 3 1, 3) :: tDie.regs ++ r }
    let routes : List (Nat × Word) := [(0x82000, 8), (0x82100, 0x7FFFF), (0x82104, 0x80000000)]
    (d []).comes (q (.module 3)) = true ∧ (d []).mine (q (.module 3)) = false ∧ (d []).addrSet = false ∧ tDie.comes (q (.module 3)) = false ∧
    (d [(0x80000, 0x80000002)]).addrSet = true ∧ (d [(0x80000, 0x80000002)]).mine (q (.module 3)) = false ∧
    routeModule (d []).reg (q .cellar).die (flowKey (d []).addr 5) = none ∧
    routeModule (d [(0x80000, 0x80000002)]).reg 7 (flowKey 0 5) = none ∧
    (d routes).mine (q .cellar) = false ∧ (d routes).comes (q .cellar) = true ∧
    (routeModule (d routes).reg (q .cellar).die (flowKey (d routes).addr (q .cellar).src.toNat)).map (·.1) = some 3 ∧
    ((d routes).serve (q .cellar) .read).celIn.map (fun x => (x.2.h.vc, x.2.h.kind, x.2.h.far, x.2.h.dest, x.2.h.src, x.2.word 1)) =
      [(2, 5, true, 3, 5, 0x0007000000000040)] := by decide +kernel

/-- A read of a bank that wakes waits, a later one of the same requester waits behind it, and both are answered once the bank serves; one whose
row has gone is answered too. -/
theorem test_bank_wait_hyps :
    let q := tMem
    let d := tBanks
    let h (d : Die) : Die := { d with held := [⟨q, .read, true⟩] }
    Serves (tOf (d (.waking 0))) (d (.waking 0)) q ∧ (d (.waking 0)).place q.addr = .mem 0 0 0x40 ∧ (d (.waking 0)).wordCheck q true = St.OK ∧
    (d (.waking 0)).bankWaits q .read = true ∧ (d (.waking 0)).lineCheck q (7 + 1) true = St.OK ∧ (d (.waking 0)).bankWaits q (.lines (7 + 1)) = true ∧
    (h (d .on)).comes q = true ∧ (h (d .on)).mine q = true ∧ (h (d .on)).latchDue = h (d .on) ∧ (h (d .on)).portSends q = false ∧ (h (d .on)).behind q = true ∧ q.byPort = true ∧
    (h (d .on)).coreOn 0 = true ∧ (h (d .on)).jobCore 0 = false ∧ ((h (d .on)).wkAt 0).Clean 0 (offsets 0x40 4) ∧ (h (d .on)).shadow = [] ∧
    ((h (d .on)).serveHeld.resps.map (fun r => (r.st, r.data)), (h (d .on)).serveHeld.held) = ([(St.OK, [0])], []) ∧
    (h { d .on with regs := [] }).rowPresent 0 = false ∧ (h (d .on)).rowPresent 0 = true ∧
    (h { d .on with therm := Therm.reset }).regionOn (regionOf 0) = false ∧
    (h { d .on with therm := Therm.reset }).latchDue = h { d .on with therm := Therm.reset } := by decide +kernel

/-! ### The Doorlatch and the job -/

/-- A wait of port B for the Doorlatch. -/
def tWait (timed : Bool) (left : Nat) : DlWait := ⟨1, 0xFFFF, 5, left, timed, ⟨.cellar, 1, 0xFFFF, 0, 0x1001C0000⟩⟩

/-- The Doorlatch in each state of R453's table: orphaned, free, held by the requester with and without a waiter, held by the other port
with room in its queue and without. -/
theorem test_doorlatch_hyps :
    (tOf { tDie with latch := { Latch.reset with orph := true } }).MayWrite (tReq 0x1C0000) 0x1C0000 ∧ (1 : BitVec 20) ≠ 0 ∧
    (tOf tDie).MayWrite (tReq 0x1C0000) 0x1C0000 ∧ tDie.latch.held = false ∧
    (tOf tHeld).MayWrite (tReq 0x1C0000) 0x1C0000 ∧ tHeld.latch.port = (tReq 0x1C0000).port ∧ tHeld.job.state ≠ 5 ∧
    (tOf { tHeld with latch := { tHeld.latch with waiters := [tWait true 1] } }).MayWrite (tReq 0x1C0000) 0x1C0000 ∧
    (tOf { tHeld with job := { Job.none with state := 5 } }).MayWrite (tReq 0x1C0000) 0x1C0000 ∧
    (tOf { tHeld with latch := { tHeld.latch with port := 1, waiters := List.replicate 7 (tWait false 0) } }).MayWrite (tReq 0x1C0000) 0x1C0000 ∧
    (tOf { tHeld with latch := { tHeld.latch with port := 1, waiters := List.replicate 8 (tWait false 0) } }).MayWrite (tReq 0x1C0000)
      0x1C0000 := by decide +kernel

/-- A lease that has run out, with a wait that has not timed out, and a wait that has. -/
theorem test_doorlatch_timeout_hyps :
    let s := tOf { tHeld with latch := { tHeld.latch with left := 0, waiters := [tWait true 1, tWait false 0] } }
    s.die.boot.porst = false ∧ s.die.latch.held = true ∧ s.die.latch.left = 0 ∧ (∀ x ∈ s.die.latch.waiters, (x.timed && x.left == 0) = false) ∧
    s.die.flog.length < 32 ∧ (tHeld.latch.left ≠ 0 ∧ tDie.latch.held = false) ∧
    ({ tHeld.latch with waiters := [tWait false 0, tWait true 0] }).waiters.find? (fun x => x.timed && x.left == 0) = some (tWait true 0) := by
  decide +kernel

/-- A job in each state, on a die whose Doorlatch the requester holds. -/
theorem test_job_hyps : ∀ n, n < 7 →
    (tOf { tHeld with job := { Job.none with state := n, pausep := true } }).MayWrite (tReq 0x1C0040) 0x1C0040 ∧
    tHeld.span.restarting = none ∧ tHeld.rf 0x180018 31 16 = tHeld.rf 0x80008 15 0 ∧ tHeld.rf 0x180018 15 0 = tHeld.rf 0x10004 15 0 := by
  decide +kernel

/-- A scrub in progress of a job of core 0. -/
theorem test_scrub_hyps :
    let d := { tHeld with job := { Job.none with state := 6, image := [], use := [1] } }
    d.boot.porst = false ∧ d.job.state = 6 ∧ d.jobCores = [0] ∧ tHeld.job.state ≠ 6 := by decide +kernel

/-- A load that GO starts, one that it finds without a site, one in the wrong phase; and a load that waits for its image. -/
theorem test_load_hyps :
    (tOf tHeld).MayWrite (tReq 0x18000C) 0x18000C ∧ bit (0x80000000 : Word) 31 = true ∧ tHeld.phase = 10 ∧ bit (tHeld.reg 0x140034) 31 = true ∧
    tHeld.loadState = 0 ∧ tHeld.job.state = 0 ∧
    (let d : Die := { tHeld with regs := [(0x140000, 10)] }
     (tOf d).MayWrite (tReq 0x18000C) 0x18000C ∧ d.phase = 10 ∧ bit (d.reg 0x140034) 31 = false) ∧
    (let d : Die := { tHeld with regs := [(0x140000, 9)] }
     (tOf d).MayWrite (tReq 0x18000C) 0x18000C ∧ d.phase ≠ 10) ∧
    (let d := tHeld.setNat 0x180010 1
     d.loadState = 1 ∧ d.meshOn = true ∧ St.IMG_BAD ≠ St.OK) := by decide +kernel

/-! ### Spans -/

/-- A die in FENCE with core 0 of the job in its span, SPAN_DONE on and its semaphore at its threshold. -/
def tSpan : Die :=
  { tDie with
    regs := tDie.regs ++ [(0xC0000, 0x80030001), (0xC0014, 10), (0xC0018, 4)]
    job := { Job.none with use := [1], state := 2 }
    cores := [(0, { tCore with regs := [(0xE000, 0x80000003), (0xC000, 0x80000000)], sems := [(0, { Sem.reset with value := 3 })], ctxs := [], quiet := 4 })] }

theorem test_span_arrival_hyps :
    tSpan.coreOn 0 = true ∧ tSpan.spanPhase = 1 ∧ bit ((tSpan.core 0).reg 0xE000) 31 = true ∧ (tSpan.core 0).spanArr = false ∧
    (tSpan.core 0).quiescent tSpan.cyc = true ∧ (tSpan.core 0).spanDone = some 0 ∧ 0 < (tSpan.core 0).quiet ∧
    tSpan.rf 0xC0018 15 0 ≤ (tSpan.core 0).quiet ∧ (tDie.core 0).spanDone = none := by decide +kernel

/-- A span one 10 ns after its watchdog's time. -/
theorem test_span_wdog_hyps :
    ({ tSpan with ts := 1001 }).meshOn = true ∧ tSpan.span.wdog = false ∧ (tSpan.reg 0xC0014).toNat ≠ 0 ∧
    tSpan.span.goTs + 100 * (tSpan.reg 0xC0014).toNat < ({ tSpan with ts := 1001 }).ts.toNat ∧ (tDie.reg 0xC0014).toNat = 0 := by decide +kernel

/-- A die whose cores have all arrived, and one whose have not. -/
theorem test_fence_hyps :
    let d := { tSpan with cores := [(0, { tSpan.core 0 with spanArr := true })] }
    d.meshOn = true ∧ d.spanPhase = 1 ∧ d.span.arrived = false ∧ d.spanCores = [0] ∧ (∀ c ∈ d.spanCores, ((tOf d).coreAt c).spanArr = true) ∧
    bit (d.reg 0xC0028) 31 = false ∧ d.drained = true ∧ tSpan.spanCores = [0] ∧ ((tOf tSpan).coreAt 0).spanArr = false ∧
    tSpan.span.arrived = false := by decide +kernel

/-- A root that has arrived, in each phase that a release ends. -/
def tReleased (phase : Nat) : Die :=
  { tSpan with
    regs := tDie.regs ++ [(0xC0000, BitVec.ofNat 32 (0x80030000 + phase)), (0xC0008, 0x80000000)]
    span := { Span.reset with arrived := true } }

theorem test_release_hyps : ∀ p, p ∈ [1, 2, 3, 4] → (tReleased p).Released ∧ (tReleased p).spanPhase = p ∧ (tReleased p).meshOn = true ∧
    (tReleased p).anyOver = false ∧ (tReleased p).span.failed = [] ∧ (tReleased p).span.held = none ∧ tSpan.full31 = false := by decide +kernel

/-- A held mark at the end of its fields' ranges. -/
theorem test_mark_hyp : (⟨7, 4095, St.SPAN_QUIET⟩ : Mark).src < 8 ∧ (⟨7, 4095, St.SPAN_QUIET⟩ : Mark).loc < 4096 := by decide +kernel

/-- A running attempt that is dirty, one that is not, and an orphaned release. -/
theorem test_rollback_hyps :
    (tSpan.setNat 0xC0028 0x80000000).spanPhase = 1 ∧ bit ((tSpan.setNat 0xC0028 0x80000000).reg 0xC0028) 31 = true ∧
    (tSpan.setNat 0xC0028 0x80000000).span.arrived = false ∧ (tSpan.setNat 0xC0028 0x80000000).brokenEarly = none ∧
    (bit (tSpan.reg 0xC0028) 31 = false ∧ (tSpan.bar 31).down ≠ some true) ∧
    (({ tSpan with bars := [(31, ⟨[], true, some true⟩)] }).bar 31).down = some true ∧
    (tReleased 3).span.stop = none ∧ ({ tReleased 3 with span := { Span.reset with stop := some (0, St.SPAN_SWSTOP) } }).span.stop ≠ none := by
  decide +kernel

/-- A stop that is pending while recovering, one that channel 31 brings, and none. -/
theorem test_stop_hyps :
    (2 ≤ (tReleased 2).spanPhase ∧ (tReleased 4).spanPhase ≤ 4) ∧
    (({ tReleased 2 with span := { Span.reset with stop := some (0, St.SPAN_SWSTOP) } }).span.stop = some (0, St.SPAN_SWSTOP) ∧
      ((tReleased 2).bar 31).down ≠ some true) ∧
    (let d := { tReleased 4 with span := { Span.reset with stop := some (3, St.GUAR_ATTIC) } }
     d.broken = some (3, St.GUAR_ATTIC) ∧ d.spanPhase = 4 ∧ (d.bar 31).down ≠ some true ∧ (tReleased 3).broken = none) ∧
    (let d := { tReleased 3 with span := { Span.reset with stop := some (6, St.GUAR_RETRY) } }
     d.broken ≠ none ∧ d.spanPhase = 3 ∧ d.span.arrived = false) ∧
    (({ tReleased 4 with bars := [(31, ⟨[], true, some true⟩)] }).bar 31).down = some true ∧ tSpan.spanPhase < 2 ∧
    4 < (tReleased 5).spanPhase ∧ (tReleased 2).boot.porst = false := by decide +kernel

/-- Log messages that wait for each kind of answer, before their time and at it. -/
theorem test_log_hyps :
    let d := { tSpan with span := { Span.reset with log := [(1, 0, 7), (2, 0, 7), (3, 0, 7)] } }
    d.meshOn = true ∧ d.span.restarting = none ∧ (∀ l, l ∈ [1, 2, 3] → d.span.log.any (fun x => x.1 == l) = true) ∧
    logStatus 0 = St.OK ∧ logStatus St.LOG_BAD.toNat = St.LOG_BAD ∧ logStatus 0xFFFF ≠ St.OK ∧
    (∀ l : Fin 3, d.span.log.find? (fun x => x.1 == l.val + 1) = some (l.val + 1, 0, 7)) ∧ d.ts.toNat < 7 ∧
    7 ≤ ({ d with ts := 7 }).ts.toNat ∧ tSpan.span.log.any (fun x => x.1 == 1) = false := by decide +kernel

/-- A span that runs, with and without a stop pending, and a die with none. -/
theorem test_span_command_hyps :
    (tOf { tSpan with latch := tHeld.latch }).MayWrite (tReq 0xC0020) 0xC0020 ∧ tSpan.spanLive = true ∧ tSpan.span.stop = none ∧
    ({ tSpan.span with stop := some (0, St.SPAN_SWSTOP) }).stop = some (0, St.SPAN_SWSTOP) ∧
    ({ tSpan.span with stop := some (2, St.GUAR_LATE) }).stop = some (2, St.GUAR_LATE) ∧ tSpan.jobCore 0 = true ∧
    tSpan.span.failed.contains 0 = false ∧ tSpan.jobCore 1 = false ∧
    (tOf tHeld).MayWrite (tReq 0xC0020) 0xC0020 ∧ tHeld.spanLive = false := by decide +kernel

/-- An operation code that is none, at the least and the greatest, from a port that does not hold the Doorlatch. -/
theorem test_doorlatch_code_hyps :
    let q := { tReq 0x1C0000 with port := 1 }
    Serves (tOf tHeld) tHeld q ∧ tHeld.place q.addr = .die 0x1C0000 ∧ tHeld.wordCheck q false = St.OK ∧
    fld (0x10000000 : Word) 31 29 = 0 ∧ 5 ≤ fld (0xA0000000 : Word) 31 29 ∧ 5 ≤ fld (0xFFFFFFFF : Word) 31 29 := by decide +kernel

/-! ### The Thermostat -/

/-- The die at a time in units of 10 ns. -/
def tAt (ts : BitVec 64) (th : Therm) : Die := { tDie with ts := ts, therm := { th with regions := [(0, .on)] } }

/-- A control point due, with no step and with one running, before the first commit and after it, hot and not; and none due. -/
theorem test_control_point_hyps :
    (tAt 10000 .reset).meshOn = true ∧ (tAt 10000 .reset).therm.control < (tAt 10000 .reset).ts.toNat / 10000 ∧
    (tAt 9999 .reset).ts.toNat / 10000 ≤ (tAt 9999 .reset).therm.control ∧ (tAt 10000 { Therm.reset with hot := true }).therm.hot = true ∧
    (tAt 10000 { Therm.reset with step := .glide true 0 }).therm.step ≠ .idle ∧
    ((tAt 10000 .reset).boot.firstCommit = true ∧ (tAt 10000 .reset).therm.step = .idle) := by decide +kernel

/-- Every part of a step, on either side of its time. -/
theorem test_power_state_hyps :
    tDie.boot.porst = false ∧ tDie.phase ≠ 2 ∧ (tAt 0 { Therm.reset with step := .vout true 1 50 }).therm.step = .vout true 1 50 ∧
    (tAt 0 { Therm.reset with step := .vout false 2 50 }).therm.step = .vout false 2 50 ∧ tDie.flog.length < 32 ∧
    (let d := tAt 1099 { Therm.reset with step := .settle true 0 50 }
     d.ts.toNat < 0 + 100 + ceilDiv (100 * 50) (max 1 (d.rf 0x10001C 15 8))) ∧
    (let d := tAt 1100 { Therm.reset with step := .settle true 0 50 }
     0 + 100 + ceilDiv (100 * 50) (max 1 (d.rf 0x10001C 15 8)) ≤ d.ts.toNat) ∧
    (let d := { tAt 0 { Therm.reset with step := .glide false 0 } with cyc := 1023 }
     d.therm.step = .glide false 0 ∧ d.meshOn = true ∧ d.cyc < 0 + 1024) ∧
    0 + 1024 ≤ ({ tAt 0 { Therm.reset with step := .glide true 0 } with cyc := 1024 }).cyc := by decide +kernel

/-- A region asked to sleep while a context of it runs; regions none of which changes; region 1 asked to wake. -/
theorem test_region_write_hyps :
    (let d := { tCores with regs := tDie.regs ++ [(0x100030, 1)] }
     d.meshOn = true ∧ (0 : Nat) < 16 ∧ bit (d.reg 0x100030) 0 = true ∧ bit (0 : Word) 0 = false ∧ d.regionBusy 0 = true) ∧
    (let d := { tDie with regs := tDie.regs ++ [(0x100030, 1)] }
     (∀ r, r < 16 → bit (d.reg 0x100030) r = true → bit (1 : Word) r = false → d.regionBusy r = false) ∧
     (∀ r, r < 16 → bit (d.reg 0x100030) r = true → bit (3 : Word) r = false → d.regionBusy r = false) ∧
     (∀ r, r < 16 → d.region r = .off ∨ d.region r = .on) ∧ (∀ r, r < 16 → bit (1 : Word) r = d.regionOn r) ∧
     (bit (3 : Word) 1 = true ∧ d.regionOn 1 = false ∧ ∀ r', r' < 1 → bit (3 : Word) r' = d.regionOn r')) := by decide +kernel

/-- Region 1 while it wakes, one unit before it has waked and when it has; and while it goes to sleep. -/
theorem test_region_wake_hyps :
    ({ tDie with ts := 1985, therm := { Therm.reset with regions := [(1, .waking 0 0)] } }).region 1 = .waking 0 0 ∧ tDie.loadState ≠ 4 ∧
    (1984 - 0) * (2 * (6 + tDie.pstate)) < 1600 * (2 * (6 + tDie.pstate)) + 1537 * 3 ∧
    1600 * (2 * (6 + tDie.pstate)) + 1537 * 3 ≤ (1985 - 0) * (2 * (6 + tDie.pstate)) ∧
    bit (({ tDie with regs := tDie.regs ++ [(0x100030, 2)] }).reg 0x100030) 1 = true ∧
    ({ tDie with therm := { Therm.reset with regions := [(15, .sleeping 0 0)] } }).region 15 = .sleeping 0 0 := by decide +kernel

/-- An interval of the envelope due at either end of the duty's range, and none due. -/
theorem test_envelope_hyps :
    (∀ r, r < 2 → let d := { tDie with cyc := 64, regs := tDie.regs ++ [(0x100020, nth 0 [0x10000, 0x100000] r)] }
      d.meshOn = true ∧ d.therm.interval < d.cyc / 64 ∧ 1 ≤ d.rf 0x100020 20 16 ∧ d.rf 0x100020 20 16 ≤ 16) ∧
    ({ tDie with cyc := 63 }).cyc / 64 ≤ tDie.therm.interval := by decide +kernel

/-- A power step due with the average below and above the estimate, with a swing bound and without; a calibration due and not. -/
theorem test_power_hyps :
    (let d := tAt 100000 .reset
     d.meshOn = true ∧ d.therm.power < d.ts.toNat / 100000 ∧ d.therm.pavg ≤ 1000 * d.powerAt d.pstate ∧ d.rf 0x100008 7 0 ≠ 0) ∧
    (tAt 99999 .reset).ts.toNat / 100000 ≤ (tAt 99999 .reset).therm.power ∧
    (let d := { tAt 1000000 .reset with regs := tDie.regs ++ [(0x100000, 0x40000000), (0x100008, 0)] }
     d.rf 0x100008 7 0 = 0 ∧ bit (d.reg 0x100000) 30 = true ∧ d.therm.calAt < d.ts.toNat / 1000000) ∧
    (tAt 999999 .reset).ts.toNat / 1000000 ≤ (tAt 999999 .reset).therm.calAt ∧
    bit (({ tDie with regs := [(0x100000, 0)] }).reg 0x100000) 30 = false := by decide +kernel

/-- A learning die at the end of its last bin, with the floor met and not, and one that does not learn. -/
theorem test_learn_hyps :
    (let d := { tSpan with regs := tDie.regs ++ [(0xC0000, 0x80030002), (0x100000, 0x80000000)], therm := { Therm.reset with bin := 15, unmet := some 0 } }
     d.meshOn = true ∧ bit (d.reg 0x100000) 31 = true ∧ d.job.state = 2 ∧ d.therm.bin = 15 ∧ d.spanPhase ≠ 1 ∧ d.therm.unmet ≠ none) ∧
    tDie.job.state ≠ 2 ∧ 4 ≤ 16 ∧ (0 : Nat) ≤ 0 := by decide +kernel

/-- A sample due: one sensor at the limit of 105 °C, all of them 3 °C and a quarter below it, and one between. -/
theorem test_sensor_hyps :
    (tAt 1000 .reset).meshOn = true ∧ (tAt 1000 .reset).therm.sampled < (tAt 1000 .reset).ts.toNat / 1000 ∧
    (tAt 999 .reset).ts.toNat / 1000 ≤ (tAt 999 .reset).therm.sampled ∧ tDie.rf 0x100018 7 0 = 105 ∧
    (∀ x : BitVec 16, (List.replicate 36 x).length = 36) ∧
    (∃ r ∈ List.replicate 36 (420 : BitVec 16), (4 * (min 105 105 : Nat) : Int) ≤ r.toInt) ∧
    (∀ r ∈ List.replicate 36 (407 : BitVec 16), r.toInt < (4 * (min 105 105 : Nat) : Int) - 12) ∧
    (∀ r ∈ List.replicate 36 (408 : BitVec 16), r.toInt < (4 * (min 105 105 : Nat) : Int)) ∧
    (∃ r ∈ List.replicate 36 (408 : BitVec 16), (4 * (min 105 105 : Nat) : Int) - 12 ≤ r.toInt) :=
  ⟨by decide +kernel, by decide +kernel, by decide +kernel, by decide +kernel, fun _ => List.length_replicate, ⟨420, by simp, by decide⟩,
    fun r h => by rw [List.eq_of_mem_replicate h]; decide, fun r h => by rw [List.eq_of_mem_replicate h]; decide, ⟨408, by simp, by decide⟩⟩

theorem test_trip_hyps :
    tDie.boot.porst = false ∧ bit (tDie.reg 0x100064) 31 = false ∧ bit ((tDie.setNat 0x100064 0x80000000).reg 0x100064) 31 = true ∧
    tDie.boot.refOk = true ∧ ({ tDie with therm := { Therm.reset with shutdown := some 5 } }).therm.shutdown = some 5 ∧
    tDie.therm.shutdown = none ∧ tDie.boot.aonRo = false ∧ ({ tDie.boot with aonRo := true }).aonRo = true := by decide +kernel

/-- An ageing period due, with a slack in each of the three ranges, a margin with room and without. -/
theorem test_ageing_hyps :
    let d := { tAt 1000000000 .reset with fuses := { tDie.fuses with low := 10, high := 20 } }
    d.meshOn = true ∧ d.therm.ageAt < d.ts.toNat / 1000000000 ∧ (tAt 999999999 .reset).ts.toNat / 1000000000 ≤ 0 ∧
    9 < d.fuses.low ∧ d.rf 0x100028 7 0 < 60 ∧ 60 ≤ (d.setNat 0x100028 0xF3C).rf 0x100028 7 0 ∧
    1 ≤ (d.setNat 0x100028 0xF3C).rf 0x100028 11 8 ∧ d.flog.length < 32 ∧ (d.fuses.low ≤ 10 ∧ 20 ≤ d.fuses.high) ∧ d.fuses.high < 21 ∧
    d.therm.high < 9 ∧ 9 ≤ ({ d.therm with high := 9 }).high := by decide +kernel

/-! ### Flits, modules and connections -/

/-- A header whose every field is at the end of its range, and a link flit's fields likewise. -/
theorem test_header_hyps :
    (3 < 4 ∧ 7 < 8 ∧ 4095 < 4096 ∧ 15 < 16 ∧ 65535 < 65536 ∧ 511 < 512) ∧
    (1023 < 1024 ∧ 63 < 64 ∧ ((3, 31) : Nat × Nat).1 < 4 ∧ ((3, 31) : Nat × Nat).2 < 32) ∧ (⟨0, [], [], [], none, false⟩ : Flit).err = [] := by decide

/-- A setting trains at the highest rate, at x32 only, and none trains. -/
theorem test_training_hyps :
    trainPick 5 0 0xFFF = some (5, false) ∧ trainPick 5 0 0x802 = some (5, true) ∧ trainPick 5 0 0x2 = some (0, true) ∧ trainPick 5 3 0x3F = none := by
  decide +kernel

/-- The die with a module in a state, in role PEER. -/
def tMod (st : Nat) (x : Module) : Die :=
  { tDie with regs := tDie.regs ++ [(0x80000, 0x80000001), (modOff 3 0, 0x80000105), (modOff 3 1, BitVec.ofNat 32 st)], mods := [(3, x)] }

/-- A stream flit from die 9 to die `to`. -/
def tLink (vc kind : Nat) (dst : DieAddr) : LFlit :=
  ⟨dst, 9, ⟨{ Hdr.unpack 0 with vc := vc, kind := kind, far := true }.pack, List.replicate 8 0, [], [], none, false⟩⟩

/-- A module in each state that a command acts in, and in one in which it does not. -/
theorem test_module_hyps :
    (∀ n, n < 6 → (tMod n .reset).modState 3 = n ∧ (tMod n .reset).meshOn = true ∧ (tMod n .reset).flog.length < 32) ∧
    trainPick (min 5 ((tMod 2 .reset).rf (modOff 3 0) 2 0)) (min 5 ((tMod 2 .reset).rf (modOff 3 0) 6 4)) 0xC00 = some (5, false) ∧
    trainPick (min 5 ((tMod 2 .reset).rf (modOff 3 0) 2 0)) (min 5 ((tMod 2 .reset).rf (modOff 3 0) 6 4)) 0 = none ∧
    (bit (0 : Word) 31 = false ∧ bit (0x80000100 : Word) 31 = true ∧ fld (0x80000100 : Word) 9 8 ≠ 0) ∧
    (statLower (BitVec.ofNat 32 (Fit.stat ⟨false, 5, 0, 0⟩)) ((tMod 4 .reset).reg (modOff 3 1)) = false ∧
      statLower (BitVec.ofNat 32 (Fit.stat ⟨true, 0, 0, 0⟩)) ((tMod (Fit.stat ⟨false, 5, 0, 0⟩ / 8 * 8 + 4) .reset).reg (modOff 3 1)) = true) ∧
    ((tMod 1 .reset).anyBusy = false ∧ ({ tMod 1 .reset with cores := [(0, tCore)] }).anyBusy = true ∧
      (tMod 1 .reset).modState 3 = 1 ∧ bit ((tMod 1 .reset).reg 0x140034) 31 = true ∧ bit (0x80000000 : Word) 31 = true ∧
      fld (0x80000000 : Word) 9 8 = 0) ∧
    (tMod (Fit.stat ⟨false, 5, 0, 0⟩ / 8 * 8 + 4) .reset).modState 3 = 4 := by decide +kernel

/-- What an ACTIVE module finds to send: a resend, the data flit of an open packet, a data flit, one of a hub's, an event, nothing, a replay
request. -/
theorem test_send_hyps :
    (let x : Module := { Module.reset with resendFrom := some 0, replay := [⟨0, 0, 0, 0⟩] }
     (tMod 3 x).modState 3 = 3 ∧ ((tMod 3 x).mod 3).resendFrom = some 0 ∧ ((tMod 3 x).mod 3).replay[0]? = some ⟨0, 0, 0, 0⟩) ∧
    (let x : Module := { Module.reset with opened := some (tLink 0 3 7) }
     ((tMod 3 x).mod 3).resendFrom = none ∧ x.replay.length < 256 ∧ ((tMod 3 x).mod 3).opened = some (tLink 0 3 7)) ∧
    (let x : Module := { Module.reset with egress := [tLink 0 3 7] }
     ((tMod 3 x).mod 3).resendFrom = none ∧ x.replay.length < 256 ∧ x.opened = none ∧ (tMod 3 x).connWork 3 = none ∧ (tMod 3 x).role 3 < 2 ∧
     (tMod 3 x).nextOut 3 = some (tLink 0 3 7) ∧ ((tMod 3 x).toWire 3 (tLink 0 3 7)).isSome = true ∧ (tMod 3 x).ready 3 = true) ∧
    (let x : Module := { Module.reset with egress := [tLink 2 5 1] }
     let d : Die := { tMod 3 x with regs := [(0x140000, 0x8000000A), (modOff 3 0, 0x80000205), (modOff 3 1, 3)] }
     d.role 3 = 2 ∧ d.modState 3 = 3 ∧ d.connWork 3 = none ∧ d.nextOut 3 = some (tLink 2 5 1) ∧ (tLink 2 5 1).flit.h.kind = 5) ∧
    (let x : Module := { Module.reset with events := [(0, 4)] }
     (tMod 3 x).ready 3 = false ∧ x.events ≠ []) ∧
    ((tMod 3 .reset).nextOut 3 = none ∧ Module.reset.events = [] ∧ (tMod 3 .reset).ready 3 = false ∧ Module.reset.askReplay = false ∧
      ({ Module.reset with askReplay := true } : Module).askReplay = true) := by
  decide +kernel

/-- A flit with the LSEQ expected, into a Landing and a router that hold none of its VC and into ones that do, one ahead and one seen before, at
either end of the sequence's wrap. -/
theorem test_receive_hyps :
    (tMod 3 .reset).role 3 = 1 ∧ (tMod 3 .reset).addrSet = true ∧ (tLink 2 0 1).ddie = (tMod 3 .reset).addr ∧ (tLink 2 0 1).flit.err = [] ∧
    (tLink 2 0 1).flit.leaves = [] ∧ (tLink 2 0 1).flit.transit = none ∧ (tLink 2 0 1).flit.port = false ∧ (tLink 2 0 1).flit.pay.length = 8 ∧
    (tLink 2 0 1).flit.h.vc = 2 ∧ ((tMod 3 .reset).mod 3).rxSeq = 0 ∧ ((tMod 3 .reset).mod 3).ingress = [] ∧
    ((tMod 3 .reset).router (entryRouter 3 (tLink 2 0 1))).inp 5 = [] ∧
    (∃ g ∈ ((tMod 3 { Module.reset with ingress := [tLink 2 0 1] }).mod 3).ingress, g.flit.h.vc = 2) ∧
    (∃ f ∈ (((tMod 3 .reset).enter (entryRouter 3 (tLink 2 0 1)) 5 (tLink 2 0 1).flit).router (entryRouter 3 (tLink 2 0 1))).inp 5,
      f.h.vc = 2) ∧
    (1 ≠ 0 ∧ atOrAfter 10 0 1 = true) ∧ (1023 ≠ 0 ∧ atOrAfter 10 0 1023 = false) ∧ (tMod 4 .reset).modState 3 ≠ 3 := by decide +kernel

/-- A replay that is asked for, the eighth in a row, a flit sent before, and one that waits too long or not yet. -/
theorem test_replay_hyps :
    let x : Module := { Module.reset with replay := [⟨0, 0, 0, 0⟩], asks := true }
    (tMod 3 x).meshOn = true ∧ ((tMod 3 x).mod 3).asks = true ∧ x.replay ≠ [] ∧ (∀ e ∈ x.replay, e.again = 0) ∧ x.resends < 7 ∧
    7 ≤ ({ x with resends := 7 }).resends ∧ (∃ e ∈ ({ x with replay := [⟨0, 0, 0, 1⟩] }).replay, 1 ≤ e.again) ∧
    ({ tMod (Fit.stat ⟨false, 5, 0, 0⟩) x with cyc := 100000 }).modState 3 = 3 ∧
    ({ tMod (Fit.stat ⟨false, 5, 0, 0⟩) x with cyc := 100000 }).flitTimes 3 256 0 = true ∧ (tMod 3 x).flitTimes 3 256 0 = false ∧
    Module.reset.asks = false ∧ Module.reset.replay = [] := by decide +kernel

/-- Each way a landed flit goes: no address, home on VC0, home on VC1 with an entry and without, and onwards with a route and without. -/
theorem test_landed_hyps :
    (tDie.addrSet = false ∧ ¬ ((tLink 0 0 7).ddie = 0xFFFF ∧ (tLink 0 0 7).flit.h.vc = 2 ∧ (tLink 0 0 7).flit.h.kind = 5)) ∧
    ((tMod 3 .reset).addrSet = true ∧ (tLink 0 0 1).ddie = (tMod 3 .reset).addr ∧ (tLink 0 0 1).flit.h.vc ≠ 1) ∧
    ((tLink 1 0 1).flit.h.vc = 1 ∧ (tLink 1 0 1).flit.h.kind < 3 ∧ 3 ≤ (tLink 1 3 1).flit.h.kind ∧
      (tMod 3 .reset).ingressStream 3 (tLink 1 0 1) = none) ∧
    (let d : Die := { tMod 3 .reset with regs := (tMod 3 .reset).regs ++ [(0x84380, 0x80000009), (0x84384, 0)] }
     (d.ingressStream 3 (tLink 1 0 1)).isSome = true) ∧
    ((tLink 0 0 7).flit.h.vc ≠ 3 ∧ (tLink 1 0 7).ddie ≠ (tMod 3 .reset).addr ∧ (tLink 1 0 7).ddie ≠ 0xFFFF ∧
      routeModule (tMod 3 .reset).reg 7 (flowKey 9 (tLink 1 0 7).flit.h.src) = none) ∧
    (let d : Die := { tMod 3 .reset with regs := (tMod 3 .reset).regs ++ [(0x82000, 8), (0x82100, 0x7FFFF), (0x82104, 0x80000000)] }
     (routeModule d.reg 7 (flowKey 9 (tLink 1 0 7).flit.h.src)).isSome = true) := by decide +kernel

/-- An address not yet assigned and one that is; a write of the one that names no die. -/
theorem test_die_address_hyps : tDie.meshOn = true ∧ tDie.addrSet = false ∧ fld (0xFFFE : Word) 15 0 ≠ 0xFFFF ∧
    (tMod 3 .reset).addrSet = true ∧ fld (0xFFFF : Word) 15 0 = 0xFFFF := by decide +kernel

/-- A stream flit that waits in a Landing: with a token and without, before a router that has its place free and one that has not, and none. -/
theorem test_transit_hyps :
    let x : Module := { Module.reset with ingress := [tLink 1 0 7], shaper := ⟨4096, 0⟩ }
    let waits (l : LFlit) : Bool := l.flit.h.vc == 1 && l.ddie != 0xFFFF && l.ddie != (tMod 3 x).addr
    (tMod 3 x).role 3 ≠ 2 ∧ ((tMod 3 x).mod 3).ingress.find? waits = some (tLink 1 0 7) ∧
    ((tMod 3 x).router (entryRouter 3 (tLink 1 0 7))).inp 5 = [] ∧ (((tMod 3 x).mod 3).shaper.spend 0xFF000100 0 1).isSome = true ∧
    (∃ f ∈ (((tMod 3 x).enter (entryRouter 3 (tLink 1 0 7)) 5 (tLink 1 0 7).flit).router (entryRouter 3 (tLink 1 0 7))).inp 5, f.h.vc = 1) ∧
    (⟨0, 0⟩ : Shaper).spend 0xFF000100 0 1 = none ∧ ((tMod 3 .reset).mod 3).ingress = [] := by decide +kernel

/-- A hub's answer to a request that waits, to none, an error, a line; a request at its time and a tick before it. -/
theorem test_hub_hyps :
    let q : HubReq := ⟨3, 0, 0, 0, true, 1, 0⟩
    let d (l : LFlit) : Die := { tMod 3 { Module.reset with ingress := [l] } with
      regs := [(0x140000, 0x8000000A), (modOff 3 0, 0x80000205)], hub := [q] }
    (d (tLink 0 6 1)).role 3 = 2 ∧ ((d (tLink 0 6 1)).mod 3).ingress = [tLink 0 6 1] ∧ (tLink 0 6 1).flit.h.kind = 6 ∧
    (d (tLink 0 6 1)).hub.findIdx? (fun q => q.mod == 3 && q.src == (tLink 0 6 1).flit.h.dest && q.sep == (tLink 0 6 1).flit.h.sep &&
      q.mseq == (tLink 0 6 1).flit.h.mseq) = some 0 ∧ (d (tLink 0 6 1)).hub[0]? = some q ∧ (tLink 0 3 1).flit.h.kind ≠ 6 ∧
    (tMod 3 .reset).hub.findIdx? (fun q => q.mod == 3) = none ∧ (d (tLink 0 6 1)).rf 0x8000C 19 0 ≠ 0 ∧
    q.at_ + 100 * (d (tLink 0 6 1)).rf 0x8000C 19 0 ≤ ({ d (tLink 0 6 1) with ts := 100000 }).ts.toNat ∧
    ({ d (tLink 0 6 1) with ts := 99999 }).ts.toNat < q.at_ + 100 * (d (tLink 0 6 1)).rf 0x8000C 19 0 ∧
    ({ tDie with regs := (0x8000C, 0) :: tDie.regs }).rf 0x8000C 19 0 = 0 := by decide +kernel

/-- A connection that may be enabled, one with a context that runs, and a pair whose windows pass an edge's memory; packets in order, ahead, behind
and bare; an acknowledgement due by count, by time and not; a packet whose timeout has run out, with a retry left and with none. -/
theorem test_connection_hyps :
    (tDie.meshOn = true ∧ tDie.anyBusy = false ∧ tCores.anyBusy = true ∧ bit (0x80000000 : Word) 31 = true ∧
      tDie.groupEdges (fld (0x80000000 : Word) 27 24) = [] ∧ bit (0 : Word) 31 = false) ∧
    (let d : Die := { tDie with
       regs := tDie.regs ++ [(0x82000, 8), (connOff 1 0, 0x80000007), (connOff 1 3, 0x4000000), (connOff 0 3, 0x4000000)] }
     ∃ e ∈ d.groupEdges 0, 16384 < d.edgeWindow e 0 0x80000000) ∧
    (∀ t, t < 2 → let d : Die := { tDie with
       conns := [(63, { Conn.reset with got := [⟨3, 0, t, 1, 0, false, []⟩] })], regs := (connOff 63 0, 0x80000007) :: tDie.regs }
      (d.conn 63).got = [⟨3, 0, t, 1, 0, false, []⟩] ∧ bit (d.reg (connOff 63 0)) 31 = true ∧ (d.reg (connOff 63 2)).toNat = 0) ∧
    (atOrAfter 32 0 1 = true ∧ atOrAfter 32 0 (2 ^ 32 - 1) = false ∧ Conn.reset.naked = false ∧ ({ Conn.reset with naked := true }).naked = true) ∧
    (0 < 16 ∧ ({ tDie with ts := 100 }).ts.toNat = 0 + 100 ∧ ({ tDie with ts := 99 }).ts.toNat < 0 + 100) ∧
    (let d : Die :=  { tDie with
       ts := 10000, regs := (connOff 0 0, 0x80000007) :: tDie.regs, conns := [(0, { Conn.reset with unacked := [⟨0, tLink 0 0 7, 0, 3⟩], retries := 3 })] }
     (d.conn 0).unacked = [⟨0, tLink 0 0 7, 0, 3⟩] ∧ bit (d.reg (connOff 0 0)) 31 = true ∧ bit (d.reg (connOff 0 0)) 30 = false ∧
     0 + 100 * d.rf (connOff 0 3) 11 0 ≤ d.ts.toNat ∧
     (d.conn 0).retries < max 1 (d.rf (connOff 0 3) 31 28) ∧ max 1 (d.rf (connOff 0 3) 31 28) ≤ 8 ∧
     ({ d with ts := 9999 }).ts.toNat < 0 + 100 * d.rf (connOff 0 3) 11 0 ∧ d.flog.length < 32) := by decide +kernel

/-! ### The sequencer -/

/-- An instruction word: an opcode and the bits below it. -/
def tWord (op low : Nat) : BitVec 64 := BitVec.ofNat 64 (put op 58 + low)

/-- A block whose core 0 runs context 0 with this word next. -/
def tRun (x : BitVec 64) : State := tOf { tDie with cores := [(0, { tCore with istore := [(0, x)] })] }

/-- Words that issue, one of each instruction that needs no state of its own to pass decode. -/
def tWords : List (BitVec 64) :=
  [tWord 0x00 0, tWord 0x01 0, tWord 0x02 (put 1 57), tWord 0x03 0, tWord 0x05 (put 1 38 + put 3 6), tWord 0x06 0, tWord 0x07 (put 6 55),
    tWord 0x08 0, tWord 0x09 0, tWord 0x0A (put 1 57), tWord 0x0B (put 4 50), tWord 0x0D (put 1 56)]

/-- Each issues, alone, and its registers are settled. -/
theorem test_issue_hyps : ∀ n, n < tWords.length →
    (tRun (nth 0 tWords n)).Runs 0 0 0 (nth 0 tWords n) (opc (nth 0 tWords n)) := by decide +kernel

/-- The rules of issue, each in a state that they speak of: nothing to issue, a next word out of range, another opcode, a word that decode
refuses, a word that a busy queue holds back. -/
theorem test_issue_rule_hyps :
    issueOf (.nop 0) = some (0, 0) ∧ (tRun 0).die.coreOn 0 = true ∧ ((tRun 0).coreAt 0).Idle ∧
    ((tOf { tDie with cores := [(0, { tCore with ctxs := [] })] }).wk 0).issuing = none ∧ ((tRun 0).wk 0).issuing = some 0 ∧
    (let c : Core := { tCore with ctxs := [(0, { Ctx.reset with state := .running, inblk := true, npc := 4095 })], regs := [(0x108, 0xFFE0000)] }
     ((tOf { tDie with cores := [(0, c)] }).wk 0).issuing = some 0 ∧ c.inRange 0 4095 = false) ∧
    tCore.inRange 0 0 = true ∧ opc (tWord 1 0) ≠ 0 ∧
    ((tRun (tWord 4 0)).coreAt 0).decodeBad 0 0 0 (tWord 4 0) = some St.SEQ_OP ∧ opReserved 4 = true ∧ opReserved 0 = false := by decide +kernel

/-- A scalar register whose write an engine still owes holds a word back. -/
theorem test_stall_hyp :
    let x := tWord 0x02 0
    let c : Core := { tCore with istore := [(0, x)], ve := { VePipe.reset with sDone := [(0, 9)] } }
    c.decodeBad 0 0 0 x = none ∧ c.scoreboard 0 0 x = true := by decide +kernel

/-- Every form of the words that compute: each function of PRED, each dimension of SHAPE, SHP in and out of its bound. -/
theorem test_form_hyps :
    (∀ f, f < 8 → opc (tWord 0x08 (put f 55)) = 0x08 ∧ fld (tWord 0x08 (put f 55)) 57 55 = f) ∧
    (∀ f, f < 3 → fld (tWord 0x09 (put f 56)) 57 56 = f) ∧ bit (tWord 0x0A (put 1 57)) 57 = true ∧ bit (tWord 0x0A 0) 57 = false ∧
    (tRun (tWord 0x0A 0)).Issues 0 0 0 (tWord 0x0A 0) ∧ (tCore.reg 0x200).toNat ≤ (tCore.reg 0x204).toNat ∧
    (tCore.reg 0x204).toNat < ((tCore.setReg 0x200 1).reg 0x200).toNat ∧ bit (tWord 0x06 (put 1 57)) 57 = true ∧ bit (tWord 0x06 0) 57 = false := by
  decide +kernel

/-- A loop whose count is 0 and one whose count is not, a branch taken and one not; a word at the end of a body on its last turn and before. -/
theorem test_loop_hyps :
    (tRun (tWord 0x05 (put 1 38))).Issues 0 0 0 (tWord 0x05 (put 1 38)) ∧ BitVec.ofNat 32 (fld (tWord 0x05 (put 1 38)) 37 6) = 0 ∧
    BitVec.ofNat 32 (fld (tWord 0x05 (put 1 38 + put 3 6)) 37 6) ≠ 0 ∧ brcTaken 6 0 0 = true ∧ brcTaken 1 0 0 = false ∧
    (tRun (tWord 0x07 (put 1 55))).Issues 0 0 0 (tWord 0x07 (put 1 55)) ∧
    (∀ l ∈ [(⟨7, 1, 5⟩ : Loop)], l.ln < 8 ∧ l.last = 5) ∧ (0 : Nat) < 4 ∧ (7 : Nat) < 8 := by decide +kernel

/-- Both kinds of selector, in deterministic mode and out of it. -/
theorem test_srd_hyps :
    opc (tWord 0x0B (put 4 50)) = 0x0B ∧ fld (tWord 0x0B (put 4 50)) 53 50 = 4 ∧ fld (tWord 0x0B (put 7 50)) 53 50 = 7 ∧
    (tRun (tWord 0x0B (put 7 50))).Issues 0 0 0 (tWord 0x0B (put 7 50)) ∧ bit (tDie.reg 0xC0000) 31 = false ∧
    bit ((tDie.setNat 0xC0000 0x80000000).reg 0xC0000) 31 = true := by decide +kernel

/-- A block that ends under a step, with a switch that waits for it, and into a target that is ready or is not. -/
theorem test_block_end_hyps :
    (tRun (tWord 1 0)).Issues 0 0 0 (tWord 1 0) ∧ (tRun (tWord 0x0D (put 1 56))).Issues 0 0 0 (tWord 0x0D (put 1 56)) ∧
    ({ CoreDbg.reset with stepRun := true }).stepRun = true ∧ tCore.dbg.stepRun = false ∧ tCore.sw = none ∧
    ((⟨0, 1, false, false, none⟩ : Switch).draining = false) ∧ (tCore.ctx 0).stopping = false ∧ bit (tWord 1 0) 57 = false ∧
    tCore.maySwitch 1 = false ∧ ({ tCore with ctxs := [(1, { Ctx.reset with state := .ready })] }).maySwitch 1 = true := by decide +kernel

/-! ### Firing blocks, contexts, units and debug -/

/-- A core whose context 0 evaluates, with entry 15 enabled and its terms empty. -/
def tFire (more : Tbl Word) : Core :=
  { tCore with ctxs := [(0, { Ctx.reset with state := .running })], regs := tCore.regs ++ [(0x2000 + 32 * 15, 0x80000005)] ++ more }

theorem test_firing_hyps :
    let s := tOf { tDie with cores := [(0, tFire [])] }
    s.die.coreOn 0 = true ∧ (s.wk 0).evaluating = some 0 ∧ (s.wk 0).guardFault 0 = none ∧ ((s.coreAt 0).ctx 0).fbPend = [] ∧
    ((s.coreAt 0).fbOn 0 15 && (s.wk 0).guardHolds 0 15) = true ∧ (∀ j, j < 15 → ((s.coreAt 0).fbOn 0 j && (s.wk 0).guardHolds 0 j) = false) ∧
    bit ((s.coreAt 0).reg 0xF000) 15 = false ∧ (s.coreAt 0).inRange 0 (fld ((s.coreAt 0).fbReg 0 15 0) 11 0) = true ∧
    bit ((tFire [(0xF000, 0x8000)]).reg 0xF000) 15 = true ∧ (tFire []).dbg.step = false ∧
    ((tOf { tDie with cores := [(0, tCore)] }).wk 0).evaluating = none ∧ bit ((tFire []).fbReg 0 15 0) 30 = false := by decide +kernel

/-- A guard that names a semaphore that the context does not map. -/
theorem test_guard_fault_hyp :
    let s := tOf { tDie with cores := [(0, tFire [(0x2000 + 32 * 15 + 4, 0x20000001)])] }
    (s.wk 0).evaluating = some 0 ∧ (s.wk 0).guardFault 0 = some St.SEM_UNMAPPED := by decide +kernel

/-- An entry whose count has reached its limit, with a target and without; one that has not; a firing that waits its turn. -/
theorem test_timeout_hyps :
    let c (fb0 : Word) (cnt : Nat) (pend : List Nat) : Core :=
      { tCore with ctxs := [(0, { Ctx.reset with state := .running, fbCnt := [(0, cnt)], fbPend := pend })]
                   regs := tCore.regs ++ [(0x2000, fb0), (0x2010, 5), (0x2020, 0x7)] }
    (c 0xA1000000 5 []).active = some 0 ∧ (c 0xA1000000 5 []).fbOn 0 0 = true ∧ ((c 0xA1000000 5 []).fbReg 0 0 0x10).toNat = 5 ∧
    5 ≤ tget 0 ((c 0xA1000000 5 []).ctx 0).fbCnt 0 ∧ ((c 0xA1000000 5 []).ctx 0).fbPend.contains 0 = false ∧
    bit ((c 0xA1000000 5 []).fbReg 0 0 0) 29 = true ∧ bit ((c 0x81000000 5 []).fbReg 0 0 0) 29 = false ∧
    tget 0 ((c 0xA1000000 4 []).ctx 0).fbCnt 0 < 5 ∧
    ((tOf { tDie with cores := [(0, c 0xA1000000 5 [0])] }).wk 0).evaluating = some 0 ∧
    ((tOf { tDie with cores := [(0, c 0xA1000000 5 [0])] }).wk 0).guardFault 0 = none ∧ ((c 0xA1000000 5 [0]).ctx 0).fbPend = 0 :: [] ∧
    (c 0xA1000000 5 [0]).inRange 0 (fld ((c 0xA1000000 5 [0]).fbReg 0 (fld ((c 0xA1000000 5 [0]).fbReg 0 0 0) 27 24) 0) 11 0) = true := by
  decide +kernel

/-- A context in each state, alone on its core. -/
def tCtx (st : CtxState) : Core := { tCore with ctxs := [(0, { Ctx.reset with state := st })] }

theorem test_context_hyps :
    (tOf { tDie with cores := [(0, tCtx .ready)] }).die.coreOn 0 = true ∧ ((tCtx .empty).ctx 0).state = .empty ∧
    ((tCtx .ready).ctx 0).state ≠ .empty ∧ (tCtx .ready).maySwitch 0 = true ∧ (tCtx .ready).active = none ∧ (tCtx .running).maySwitch 0 = false ∧
    ((tCtx .running).ctx 0).state = .running ∧ ((tCtx .ready).ctx 0).state ≠ .running ∧ (tCtx .faulted).ctxBusy 0 = false ∧
    (tCtx .draining).ctxBusy 0 = true ∧
    (let c := { tCore with ctxs := [(0, { Ctx.reset with state := .running, stopping := true })] }
     (c.ctx 0).stopping = true ∧ (c.ctx 0).inblk = false ∧ c.holdsWork 0 0 = false ∧ c.sw = none) ∧ (tCore.ctx 0).inblk = true := by decide +kernel

/-- A switch asked for at a block's end, between blocks, with no target, and its stages: waiting for work, reconfiguring, done. -/
theorem test_switch_hyps :
    let c : Core := { tCore with ctxs := [(0, { Ctx.reset with state := .running }), (1, { Ctx.reset with state := .ready })] }
    let g : Switch := ⟨0, 1, true, true, none⟩
    (tOf { tDie with cores := [(0, c)] }).die.coreOn 0 = true ∧ c.active = some 0 ∧ c.maySwitch 1 = true ∧ c.sw = none ∧ (c.ctx 0).inblk = false ∧
    c.dbg.halted = false ∧ (tCore.ctx 0).inblk = true ∧ c.maySwitch 2 = false ∧ ({ c with sw := some g }).sw = some g ∧ g.draining = true ∧
    c.holdsWork 0 0 = false ∧ ({ c with queues := [(1, [⟨0, 0, 0, 0, 0, 0, 0, 0, 0, none, false, 0, 0⟩])] }).holdsWork 0 0 = true ∧
    (0 < 0 + min 1 2400 ∧ 0 + min 5000 2400 ≤ 2400) ∧ g.old ≠ g.target ∧
    (let k : Core := { tCore with
       ctxs := [(0, { Ctx.reset with state := .draining }), (1, { Ctx.reset with state := .ready })], sw := some { g with reconf := some 0 } }
     k.sw = some { g with reconf := some 0 } ∧ k.maySwitch 1 = true ∧ (k.ctx 0).state ≠ .running ∧ k.holdsWork 0 0 = false ∧
     (∀ o, o < 4 → o ≠ 0 → k.ctxBusy o = false)) := by decide +kernel

/-- A unit in each state, busy and not. -/
theorem test_unit_hyps : ∀ u, u < 5 →
    tCore.unit u = 0 ∧ ({ tCore with units := [(u, 1)] }).unit u = 1 ∧ ({ tCore with units := [(u, 2)] }).unit u = 2 ∧
    ({ tCore with units := [(u, 1)] }).unitBusy 0 u = false ∧ 0 < tget 0 ({ tCore with reen := [(u, 1)] }).reen u ∧
    tCore.annex = false ∧
    (let x := nth 0 [tWord 0x21 (put 1 54 + put 1 50), tWord 0x28 0, tWord 0x30 0, tWord 0x18 0, tWord 0x1C 0] u
     queueOf x = u + 1 ∧ opReserved (opc x) = false ∧ fieldReserved x = false) ∧
    ({ tCore with queues := [(u + 1, [⟨0, 0, 0, 0, 0, 0, 0, 0, 0, none, false, 0, 0⟩])] }).unitBusy 0 u = true := by decide +kernel

theorem test_debug_hyps :
    (tOf tCores).die.coreOn 0 = true ∧ (tCtx .running).active = some 0 ∧ (({ tCtx .running with dbg := { CoreDbg.reset with pend := true } }).ctx 0).state = .running ∧
    ((tCtx .running).ctx 0).inblk = false ∧ (tCtx .ready).active = none ∧ ({ CoreDbg.reset with halted := true }).halted = true ∧
    tCore.dbg.halted = false ∧ tCore.sw = none ∧ tDie.coreOn 12 = false := by decide +kernel

/-! ### The engines -/

/-- A core with a handle of the first 16 KiB of its Pantry, every unit granted, B0 and X0 loaded, at a word. -/
def tEngCore (x : BitVec 64) : Core :=
  { tCore with
    istore := [(0, x)]
    regs := tCore.regs ++ [(0x1000, 0x80000000), (0x1004, 0x4000)]
    ballast := [(0, .engaged 0), (1, .engaged 0), (2, .engaged 0)]
    mx := { Matrix.reset with
      cfgM := { MxCfg.reset with a := .bf16, b := .bf16 }
      cfgV := { MxCfg.reset with a := .bf16, b := .bf16 }
      slot := [(0, ⟨some .bf16, false, []⟩), (2, ⟨some .bf16, false, []⟩)]
      blk := [(0, ⟨some .fp32, List.replicate 128 0, []⟩), (16, ⟨some .fp32, List.replicate 8 0, []⟩)] } }

/-- The block around it. -/
def tEng (x : BitVec 64) : State := tOf { tDie with cores := [(0, tEngCore x)] }

/-- One word of each instruction of the matrix unit and the vector engine. -/
def tEngWords : List (BitVec 64) :=
  [tWord 0x21 (put 1 54 + put 1 50), tWord 0x21 (put 5 54), tWord 0x29 (put 3 54 + put 3 50 + put 1 49), tWord 0x22 0, tWord 0x23 0, tWord 0x28 0, tWord 0x24 0,
    tWord 0x25 0, tWord 0x20 (put 16 44 + put 3 51), tWord 0x26 0, tWord 0x2A 0, tWord 0x30 (put 1 52), tWord 0x33 0, tWord 0x34 0, tWord 0x31 0, tWord 0x32 0,
    tWord 0x35 (put 1 55)]

/-- Each runs. -/
theorem test_engine_hyps : ∀ n, n < tEngWords.length →
    (tEng (nth 0 tEngWords n)).Runs 0 0 0 (nth 0 tEngWords n) (opc (nth 0 tEngWords n)) := by decide +kernel

/-- Both outcomes of a configuration. -/
theorem test_config_hyps : decodeMxCfg (tWord 0x21 (put 1 54 + put 1 50)) = .inl { MxCfg.reset with a := .bf16, b := .bf16 } ∧
    decodeMxCfg (tWord 0x21 (put 5 54)) = .inr St.BAD_TYPE ∧ (0 : Nat) < 4 := by decide +kernel

/-- A handle that is read and written through, from its first byte to its last, and the last byte that a load takes. -/
theorem test_reads_hyp :
    ((tEng (tWord 0x22 0)).issuedWk 0 0 0 (tWord 0x22 0)).Reads 0 0 (span 0 64 ++ [16383]) (List.replicate 65 0) ∧
    ((tEng (tWord 0x24 0)).issuedWk 0 0 0 (tWord 0x24 0)).Reads 0 0 (span 0 512) (List.replicate 512 0) ∧
    ∃ k, ((tEng (tWord 0x25 0)).issuedWk 0 0 0 (tWord 0x25 0)).Writes 0 0 portFeeder [(0, 1, 0xFF), (16383, 2, 0xFF)] k :=
  ⟨⟨⟨0, 0, 16384⟩, by decide +kernel, by decide +kernel, by decide +kernel, by decide +kernel⟩,
    ⟨⟨0, 0, 16384⟩, by decide +kernel, by decide +kernel, by decide +kernel, by decide +kernel⟩,
    ⟨_, ⟨0, 0, 16384⟩, by decide +kernel, by decide +kernel, by decide +kernel, rfl⟩⟩

/-- The forms of the loads: each B mode of a type in bytes and in planes, each set of scales, a free block and a busy one. -/
theorem test_load_forms :
    (ElemType.planar .bf16 = false ∧ 0 < 2 ∧ 1 < 2) ∧ (ElemType.planar .e2m1 = true ∧ (0 : Int) % 64 = 0) ∧
    (∀ n, n < 4 → fld (tWord 0x23 (put n 56)) 57 56 = n ∧ fld (tWord 0x23 (put n 56)) 51 48 = 0) ∧
    ((0 : Int) % 2 = 0 ∧ ((0 : Int) % 64 / 2).toNat < 8) ∧ tget 0 (tEngCore 0).mx.blkFree 0 ≤ tDie.cyc ∧
    (tDie.cyc < tget 0 ({ (tEngCore 0).mx with blkFree := [(0, 1)] }).blkFree 0) := by decide +kernel

/-- A drain of each kind of block, as it is and converted. -/
theorem test_drain_hyps :
    (tget .empty (tEngCore 0).mx.blk 0).kind = some .fp32 ∧ bit (tWord 0x25 0) 27 = false ∧ bit (tWord 0x25 (put 1 27)) 27 = true ∧
    (((tEng (tWord 0x25 0)).issuedWk 0 0 0 (tWord 0x25 0)).cvt 0x10).any (fun v => v.src == .fp32 && v.dst == .bf16 && !v.srcMx && !v.dstMx) = true ∧
    ElemType.planar .fp32 = false := by decide +kernel

/-- An operation of MXM at the head of its queue, its operands in place, that the array takes; and one of MXEW and of MVM. -/
theorem test_product_hyps :
    let x := tWord 0x20 (put 16 44 + put 3 51)
    let e : QEntry := { (tEngCore x).entry 0 0 x with started := true, addr := 0 }
    let c : Core := { tEngCore x with queues := [(1, [e])] }
    let w := (tOf { tDie with cores := [(0, c)] }).wk 0
    (c.queue 1 = [e] ∧ opc e.word = 0x20 ∧ e.started = true ∧ ¬ (w.env.width = 4 ∧ fld x 52 51 = 3)) ∧
    mxmModeBad c.annex c.mx.cfgM.a (fld x 33 32) (fld x 48 44) (fld x 52 51) 0 (w.win 0) = none ∧ (w.slot 0).typ = some .bf16 ∧
    (pairK .bf16 .bf16).isSome = true ∧ (w.blk 0).begin false .fp32 128 = .inl (w.blk 0) ∧ familyKind .bf16 false = .fp32 ∧
    ((tOf { tDie with cores := [(0, tEngCore x)] }).coreAt 0).queue 1 = [] ∧ w.Accepts 0 0 ∧
    (let y := (tEng (tWord 0x26 0)).issuedWk 0 0 0 (tWord 0x26 0)
     y.Accepts 0 0 ∧ y.c.mx.cfgM.amx = false ∧ y.c.mx.cfgM.a ≠ .fp32 ∧ (y.blk 0).begin false .fp32 128 = .inl (y.blk 0)) ∧
    (let y := (tEng (tWord 0x2A 0)).issuedWk 0 0 0 (tWord 0x2A 0)
     fld (tWord 0x2A 0) 24 21 = 0 ∧ y.Accepts 1 16 ∧ (y.slot 2).typ = some .bf16 ∧ (y.blk 16).begin false .fp32 8 = .inl (y.blk 16)) := by
  decide +kernel

/-- A ramp at level 0, before its period's end, at it with work and without, down to 0 and not. -/
theorem test_ramp_hyps :
    let c (r : Ramp) : Core := { tCore with mx := { Matrix.reset with rampM := r } }
    (tOf { tDie with cores := [(0, c ⟨1, 0, false⟩)] }).die.coreOn 0 = true ∧ ((c ⟨0, 0, false⟩).mx.ramp 0).level = 0 ∧ 7 < ((c ⟨1, 0, false⟩).mx.ramp 0).start + 8 ∧
    ((c ⟨1, 0, false⟩).mx.ramp 0).level ≠ 0 ∧ ((c ⟨1, 0, false⟩).mx.ramp 0).start + 8 ≤ 8 ∧ (⟨1 - 1, 8, false⟩ : Ramp).level = 0 ∧
    (⟨min 4 (4 + 1), 8, false⟩ : Ramp).level = 4 := by decide +kernel

/-- The vector engine takes each of its instructions, with registers of 128 elements. -/
theorem test_vector_hyps : ∀ n, n ∈ [11, 12, 13, 14, 15, 16] →
    let x := nth 0 tEngWords n
    let w := (tEng x).issuedWk 0 0 0 x
    let e := ((tEng x).coreAt 0).entry 0 0 x
    w.VeTakes e ∧ (w.vreg 0).length = 128 := by decide +kernel

/-- Functions that give a value for every element, the reductions, and the forms of a load and a store. -/
theorem test_vector_form_hyps :
    (∀ a b c : Word, ∃ r, vopFn 1 true a b c = some r) ∧ (1 ≠ 0x14 ∧ 1 ≠ 0x15) ∧ (vredOp 0).isSome = true ∧
    (let x := tWord 0x31 0
     let w := (tEng x).issuedWk 0 0 0 x
     let e := ((tEng x).coreAt 0).entry 0 0 x
     w.vecMem e false 0 = .inl ⟨none, none, 64, 4⟩ ∧ w.vecMem e true 0 = .inl ⟨none, none, 64, 4⟩ ∧ bit x 28 = false ∧ bit x 23 = false) ∧
    bit (tWord 0x34 (put 1 57)) 57 = true ∧ fld (tWord 0x33 0) 54 53 ≠ 3 := by
  refine ⟨fun a b c => ⟨_, rfl⟩, by decide +kernel⟩

/-- Numbers that are NaN, and slots that are read. -/
theorem test_amax_hyps :
    (f32 0x7FC00000).isNan = true ∧ (f32 0x3F800000).isNan = false ∧ bit (0x3F800000 : Word) 31 = false ∧ fld (tWord 0x35 (put 7 55)) 57 55 ≠ 0 ∧
    fld (tWord 0x35 0) 57 55 = 0 ∧ (tEng (tWord 0x35 0)).Runs 0 0 0 (tWord 0x35 0) 0x35 ∧
    ((tEng (tWord 0x35 0)).issuedWk 0 0 0 (tWord 0x35 0)).VeTakes (((tEng (tWord 0x35 0)).coreAt 0).entry 0 0 (tWord 0x35 0)) := by decide +kernel

/-- Each ground for refusing a configuration, alone, and none of them. -/
theorem test_config_ground_hyps :
    typeOfCode 13 = none ∧ typeOfCode (fld (tWord 0x21 (put 5 54)) 57 54) = some .e3m2 ∧ pairK .bf16 .e4m3 = none ∧ pairK .e4m3 .e5m2 = some 4 ∧
    ElemType.bf16 ∉ [ElemType.e4m3, .e5m2, .e2m1, .int8] ∧ bit (tWord 0x21 (put 1 49)) 49 = true ∧ fld (tWord 0x21 (put 0x80 38)) 45 38 = 0x80 ∧
    fld (tWord 0x21 (put 0x80 30)) 37 30 = 0x80 ∧ fld (tWord 0x21 0) 45 38 ≠ 0x80 := by decide

/-- The block around a core at an engine word with more registers and another matrix state. -/
def tEngWith (x : BitVec 64) (more : Tbl Word) (mx : Matrix) : State :=
  tOf { tDie with cores := [(0, { tEngCore x with regs := (tEngCore x).regs ++ more, mx := mx })] }

/-- A load of each kind of block, and a drain of a busy one. -/
theorem test_block_hyps :
    ((tEng (tWord 0x24 0)).issuedWk 0 0 0 (tWord 0x24 0)).Accepts 0 0 ∧
    ((tEng (tWord 0x24 (put 1 53))).issuedWk 0 0 0 (tWord 0x24 (put 1 53))).Accepts 1 16 ∧
    (tEng (tWord 0x24 (put 1 53))).Runs 0 0 0 (tWord 0x24 (put 1 53)) 0x24 ∧
    (tEngWith (tWord 0x25 0) [] { Matrix.reset with blkFree := [(0, 1)] }).Runs 0 0 0 (tWord 0x25 0) 0x25 ∧
    tDie.cyc < tget 0 ((tEngWith (tWord 0x25 0) [] { Matrix.reset with blkFree := [(0, 1)] }).issuedWk 0 0 0 (tWord 0x25 0)).c.mx.blkFree 0 := by
  decide +kernel

/-- A vector load or store that converts block-scaled INT8, in the way its statement asks. -/
def tMxForm (store : Bool) (x : BitVec 64) (more : Tbl Word) : Bool :=
  let s := tEngWith x more Matrix.reset
  match (s.issuedWk 0 0 0 x).vecMem ((s.coreAt 0).entry 0 0 x) store 0 with
  | .inl m => m.typ == some .int8 && m.cvt.any (fun u => if store then u.dstMx else u.srcMx)
  | .inr _ => false

/-- A load and a store in block scales; a capture in the cycle of a register write, and one before it. -/
theorem test_vector_case_hyps :
    (tEngWith (tWord 0x32 (put 1 28)) [(0x3000, 0x1080)] .reset).Runs 0 0 0 (tWord 0x32 (put 1 28)) 0x32 ∧
    tMxForm true (tWord 0x32 (put 1 28)) [(0x3000, 0x1080)] = true ∧
    (tEngWith (tWord 0x31 (put 1 28)) [(0x3000, 0x808)] .reset).Runs 0 0 0 (tWord 0x31 (put 1 28)) 0x31 ∧
    tMxForm false (tWord 0x31 (put 1 28)) [(0x3000, 0x808)] = true ∧
    (tget (0, 0) ({ tCore with caps := [(1, (1, 0x3F800000))] }).caps (0 + 1)).1 = tDie.cyc + 1 ∧
    (tget (0, 0) tCore.caps (0 + 1)).1 ≠ tDie.cyc + 1 := by
  decide +kernel

/-! ### Core memories and configuration -/

/-- A bank in each of its states, before its time and at it. -/
theorem test_bank_hyps :
    let c (b : Bank) : Core := { tCore with banks := [(bankKey 2 7, b)], ctxs := [] }
    (tOf { tDie with cores := [(0, c .on)] }).die.coreOn 0 = true ∧ (c (.waking 0)).bank 2 7 = .waking 0 ∧ (159 < 0 + 160 ∧ 0 + 160 ≤ 160) ∧
    (c (.waking 0)).Idle ∧ (c .on).bank 2 7 = .on ∧ (∀ n, Bank.on ≠ .waking n) ∧ (c (.stopping true)).bank 2 7 = .stopping true ∧
    (∀ a, Bank.on ≠ .stopping a) ∧ (∀ n, Bank.on ≠ .last n) ∧ (c (.last 3)).bank 2 7 = .last 3 ∧ (3 ≤ 3 ∧ 3 < 4) ∧ (c (.waking 0)).wakingBank = true ∧
    ((tOf { tDie with cores := [(0, c (.last 3))] }).wk 0).bankInUse 2 7 = false ∧
    ((tOf { tDie with cores := [(0, { c (.last 3) with ports := [⟨portVector, 2, 7, 0, false, 0, 0, 0⟩] })] }).wk 0).bankInUse 2 7 = true := by
  refine ⟨?_, ?_, ?_, ?_, ?_, fun _ => by simp, ?_, fun _ => by simp, fun _ => by simp, ?_⟩ <;> decide +kernel

/-- A write-back of a word with one bad symbol, of a clean one, and none; patrol not due, due with no bank on, with a clean row and with one
bad word. -/
theorem test_patrol_hyps :
    let e : WErr := .disc (checkOf 0 1)
    let c : Core := { tCore with ceWb := [0], werr := [(0, e)], regs := tCore.regs ++ [(0x900, 0x11)] }
    let s := tOf { tDie with cyc := 256, cores := [(0, c)] }
    s.die.coreOn 0 = true ∧ c.ceWb = 0 :: [] ∧ ((s.wk 0).werrAt (0 / 0x20000) (0 % 0x20000)).read = .sym 0 1 ∧ tCore.ceWb = [] ∧
    (WErr.clean.read = .clean) ∧ fld (c.reg 0x900) 3 0 = 1 ∧ 255 < tget 0 c.patrolAt 0 + 2 ^ (7 + 1) ∧ tget 0 c.patrolAt 0 + 2 ^ (7 + 1) ≤ 256 ∧
    (∀ b, b < 16 → ({ c with banks := [] }.bank 0 b).serves = false) ∧ c.patrolNext false 0 0 = some 0 ∧
    (s.wk 0).badFor portPatrol 0 ((List.range 64).map (fun i => lineOf c.annex false 0 (0 / 128) (0 % 128) + i)) = [0] ∧
    ((s.wk 0).errFor portPatrol 0 (8 * 0)).read = .sym 0 1 ∧ bit (c.reg 0x900) 4 = true ∧
    ((tOf tCores).wk 0).badFor portPatrol 0 ((List.range 64).map (fun i => lineOf false false 0 0 0 + i)) = [] := by decide +kernel

/-- A remote read and a remote write of a line under a window, one off a line's start and one that no window allows. -/
theorem test_remote_hyps :
    let h (tail : Bool) : BitVec 64 := { Hdr.unpack 0 with vc := 1, kind := 5, tail := tail, src := 5 }.pack
    let a (sop : Nat) (o : Nat) (tail : Bool) : Flit :=
      ⟨h tail, [BitVec.ofNat 64 (put sop 56 + put 0xFFFF 32), BitVec.ofNat 64 o, 0xFFFFFFFFFFFFFFFF, 0, 0, 0, 0, 0], [], [], none, false⟩
    let d : Flit := ⟨h true, List.replicate 8 7, [], [], none, false⟩
    let c (rx : List Flit) : Core := { tCore with rx := rx, regs := tCore.regs ++ [(0x1200, 0xE0000000), (0x1204, 0), (0x1208, 0x40)] }
    let w (rx : List Flit) := (tOf { tDie with cores := [(0, c rx)] }).wk 0
    let asleep : Core := { c [a 0x12 0 true] with banks := [(bankKey 0 0, .waking 0)] }
    tCore.held = [] ∧ takeMessage tCore.isRequest tCore.rx = none ∧
    ((tOf { tDie with cores := [(0, asleep)] }).wk 0).remoteWaits [a 0x12 0 true] = true ∧
    ((tOf { tDie with cores := [(0, asleep)] }).wk 0).remoteCheck (a 0x12 0 true) = St.OK ∧
    (w []).remoteWaits [a 0x12 0 true] = false ∧
    takeMessage (c [a 0x12 0 true]).isRequest (c [a 0x12 0 true]).rx = some [a 0x12 0 true] ∧ BitVec.ofNat 16 0xFFFF = tDie.addr ∧
    memOfWindow tDie.smallPantry 0 = some (0, 0) ∧ memOfWindow tDie.smallPantry (0 + 64 * 1 - 1) = some (0, 63) ∧
    (w []).windowAllows false tDie.addr 5 0 0 64 = true ∧ (w []).windowAllows true tDie.addr 5 0 64 64 = false ∧ 8 % 64 ≠ 0 ∧
    takeMessage (c [a 0x13 0 false, d]).isRequest (c [a 0x13 0 false, d]).rx = some [a 0x13 0 false, d] ∧
    (a 0x13 0 false).h.dep ≠ 1 ∧ (a 0x13 0 false).h.dep ≠ 2 ∧ ((a 0x13 0 false).word 2).toNat = 2 ^ 64 - 1 ∧ d.err = [] ∧ d.pay.length = 8 ∧
    (c []).werr = [] ∧ (c []).ceWb = [] ∧ ((c []).annex && tDie.smallPantry) = false ∧
    (∀ i, i < 64 → ((c []).bank 0 ((w []).bankAt 0 (0 + i))).serves = true) ∧ (w []).Clean 0 (offsets 0 64) := by decide +kernel

/-- A context that runs and one that does not; a window inside its memory and past its end; contexts all EMPTY, on a core that may take the
annex and on one that may not. -/
theorem test_core_config_hyps :
    tCore.ctxBusy 0 = true ∧ tCore.ctxBusy 3 = false ∧ namesHandle (tCore.desc 3 15) 15 = false ∧
    (let y := tCore.setReg 0x1208 0x20000
     bit ((y.setReg 0x1200 0x80000000).reg 0x1200) 31 = true ∧ memSize false 0 < 64 * fld ((y.setReg 0x1204 0x40).reg 0x1204) 16 6 + 64 * fld (y.reg 0x1208) 17 6 ∧
     ¬ memSize false 0 < 64 * fld (y.reg 0x1204) 16 6 + 64 * fld (y.reg 0x1208) 17 6) ∧
    ((0 : Nat) < 4 ∧ (tCore.ctx 0).state ≠ .empty) ∧ (∀ n, n < 4 → (Core.reset.ctx n).state = .empty) ∧ bit (0x80000000 : Word) 31 = true ∧
    (tDie.env 64).elig = false ∧ (tDie.env 0).elig = true ∧ bit (0 : Word) 31 = false := by decide +kernel

/-! ### Streams and the mesh -/

/-- A core with a source endpoint 0 and a sink endpoint 1 of context 0, at a word. -/
def tStrm (x : BitVec 64) (q : List EpFlit) : Core :=
  { tEngCore x with
    regs := (tEngCore x).regs ++ [(0x4000, 0x40000000), (0x4008, 0xFF000400), (0x4020, 0x80000000), (0x402C, 8)]
    eps := [(0, { Endpoint.reset with shaper := ⟨4096, 0⟩ }), (1, { Endpoint.reset with q := q })] }

/-- A flit of a message in a ring. -/
def tFlit (held tail : Bool) : EpFlit := ⟨tail, 0, List.replicate 8 0, [], 0, 0, held, none⟩

/-- Each stream instruction on an endpoint of its kind, of another kind, and of another context. -/
theorem test_stream_hyps :
    (∀ n, n < 3 → let x := nth 0 [tWord 0x1C 0, tWord 0x1D (put 1 54 + put 1 24), tWord 0x1E (put 1 54)] n
      (tOf { tDie with cores := [(0, tStrm x [tFlit false true])] }).Runs 0 0 0 x (opc x)) ∧
    (tStrm 0 []).epMode 0 = 1 ∧ (tStrm 0 []).epCtx 0 = 0 ∧ (tStrm 0 []).epMode 1 = 2 ∧ (tStrm 0 []).epMode 15 = 0 ∧
    (({ tStrm 0 [] with regs := (tStrm 0 []).regs ++ [(0x4040, 0x44000000)] }).epMode 2 = 1 ∧
      ({ tStrm 0 [] with regs := (tStrm 0 []).regs ++ [(0x4040, 0x44000000)] }).epCtx 2 ≠ 0) ∧
    ((tStrm 0 [tFlit false true]).ep 1).visible = 1 ∧ ((tStrm 0 []).ep 1).visible = 0 ∧ (tFlit false true).held = false ∧
    (∃ b, ((tEng 0).issuedWk 0 0 0 0).handle 0 0 false = .inl b) ∧ (∃ b, ((tEng 0).issuedWk 0 0 0 0).handle 0 0 true = .inl b) ∧
    (∀ i, i < 8 → ((tEng 0).wk 0).epBadWord (tFlit false true) i = false) ∧ (64 : Int) % 64 = 0 ∧ (1 : Int) % 64 ≠ 0 :=
  ⟨by decide +kernel, by decide +kernel, by decide +kernel, by decide +kernel, by decide +kernel, by decide +kernel, by decide +kernel, by decide +kernel,
    by decide +kernel, ⟨_, rfl⟩, ⟨_, rfl⟩, by decide +kernel, by decide, by decide⟩

/-- Each of the things that leave a core, in its turn, and a port that is taken. -/
theorem test_admission_hyps :
    let f : Flit := ⟨0, [], [], [], none, false⟩
    let x := tWord 0x1C 0
    let e : QEntry := { (tStrm x []).entry 0 0 x with started := true }
    let c : Core := { tStrm x [] with queues := [(5, [e])], istore := [] }
    let w := (tOf { tDie with cores := [(0, c)] }).wk 0
    tDie.meshOn = true ∧ ({ tCore with injAt := some 0 }).injAt = some tDie.cyc ∧ tCore.injAt ≠ some tDie.cyc ∧ ({ tCore with hall := [f] }).hall = f :: [] ∧
    ((tDie.router 0).shaper.spend ((tDie.router 0).reg 0x5000) 0 1).isSome = true ∧ tCore.hall = [] ∧ ({ tCore with resp := [f] }).resp = f :: [] ∧ tCore.resp = [] ∧
    w.nextSource = some 0 ∧ w.epWaiting 0 = some .ssend ∧ c.queue 5 = e :: [] ∧ ((c.ep 0).shaper.spend (c.epReg 0 8) 0 1).isSome = true ∧
    (let u : Core := { tStrm x [] with
       steers := [(1, { Steer.reset with out := [⟨true, 0, List.replicate 8 0, [], 0, 0, false, none⟩] })], istore := [] }
     let v := (tOf { tDie with cores := [(0, u)] }).wk 0
     v.nextSource = some 0 ∧ v.epWaiting 0 = some (.unit 1) ∧ ((u.ep 0).shaper.spend (u.epReg 0 8) 0 1).isSome = true) ∧
    ((tOf tCores).wk 0).nextSource = none ∧ ({ tCore with svc := [f] }).svc = f :: [] ∧ tCore.svc = [] := by decide +kernel

/-- A full bucket spent in two cycles of one window, and shapers that may and may not be written. -/
theorem test_bucket_hyps :
    let b : Shaper := ⟨4096, 0⟩
    (b.spend 0x04000400 0 4).isSome = true ∧ b.at_ ≤ 0 ∧ [0, 1].Pairwise (· ≤ ·) ∧ (∀ x ∈ [0, 1], 0 ≤ x ∧ x < 0 + 2) ∧ (b.spendAll 0x04000400 [0, 1]).isSome = true ∧
    tCore.ctxBusy (tCore.epCtx 0) = true ∧ (tCtx .ready).ctxBusy ((tCtx .ready).epCtx 0) = false ∧ (tMod 1 .reset).modState 3 ≠ 0 ∧
    (tMod 1 .reset).anyBusy = false ∧ (tMod 1 .reset).modState 4 = 0 := by decide +kernel

/-- A delivered flit in order, out of order, at a full ring, at a starved endpoint and at one that is no sink; an acknowledgement; an endpoint whose
oldest flit has waited JWAIT cycles. -/
theorem test_delivery_hyps :
    let h (k vc dep seq : Nat) : BitVec 64 := { Hdr.unpack 0 with vc := vc, kind := k, dep := dep, mseq := seq }.pack
    let f (k vc dep seq : Nat) : Flit := ⟨h k vc dep seq, List.replicate 8 0, [], [], none, false⟩
    let k := tStrm 0 []
    ({ k with rx := [f 0 1 1 0] }).rx.find? (fun f => f.h.vc == 1 && decide (f.h.kind < 3)) = some (f 0 1 1 0) ∧ (f 0 1 1 0).h.dep = 1 ∧
    (k.ep 1).starved = false ∧ (k.ep 1).spillCount = 0 ∧ (k.ep 1).ringCount < fld (k.epReg 1 0xC) 6 0 ∧ fld (k.epReg 1 0x18) 15 0 = (f 0 1 1 0).h.mseq ∧
    (k.ep 1).fidx = (f 0 1 1 0).h.fidx ∧ (f 0 1 1 0).leaves = [] ∧ fld (k.epReg 1 0x18) 15 0 ≠ (f 0 1 1 9).h.mseq ∧
    fld (k.epReg 1 0xC) 6 0 ≤ ((tStrm 0 (List.replicate 8 (tFlit false true))).ep 1).ringCount ∧ bit (k.epReg 1 0) 25 = false ∧
    ({ Endpoint.reset with starved := true }).starved = true ∧ (f 0 1 1 0).h.tail = false ∧ k.epMode 15 ≠ 2 ∧ k.rx = [] ∧
    ({ k with rx := [f 4 0 0 0] }).rx.find? (fun f => f.h.vc == 0 && f.h.kind == 4) = some (f 4 0 0 0) ∧ tDie.flog.length < 32 ∧
    (f 4 0 0 0).h.mseq = (k.ep 0).sent ∧ (f 4 0 0 9).h.mseq ≠ (k.ep 0).sent ∧ bit (k.epReg 0 0) 24 = false ∧
    (({ k with regs := k.regs ++ [(0x403C, 5)] }).epReg 1 0x1C).toNat = 5 ∧ (tFlit false true).cyc + 5 ≤ 5 ∧ (k.epReg 1 0x1C).toNat = 0 := by
  decide +kernel

/-- A steering unit that holds a token and a message that fit, one that does not fit, one with neither; a gate with its rows, with fewer at its
deadline, and closed. -/
theorem test_steering_hyps :
    let tok (v : BitVec 64) : EpFlit := ⟨true, 0, v :: List.replicate 7 0, [], 0, 0, false, none⟩
    let k : Core := { tCore with
      regs := tCore.regs ++ [(0x4200, 0x8011000F), (0x4000, 0x80000000), (0x4020, 0x80000000), (0x4260, 0x80000101), (0x4264, 5)]
      eps := [(0, { Endpoint.reset with q := [tok 0] }), (1, { Endpoint.reset with q := [tFlit false true, tFlit true true] })] }
    let w := (tOf { tDie with cores := [(0, k)] }).wk 0
    bit (k.reg 0x4200) 31 = true ∧ (k.steer 0).stopped = false ∧ (k.steer 0).out = [] ∧ k.active = some (k.epCtx 1) ∧ fld (k.reg 0x4200) 23 20 = 1 ∧
    (k.ep 0).message = some [tok 0] ∧ (k.ep 1).message = some [tFlit false true] ∧
    (fld ((w.epPayload 0 (tok 0)).2.headD 0) 19 16 < 4 ∧ bit (k.reg 0x4200) (16 + fld ((w.epPayload 0 (tok 0)).2.headD 0) 19 16) = true) ∧
    BitVec.ofNat 16 (fld ((w.epPayload 0 (tok 0)).2.headD 0) 15 0) = (tFlit false true).mseq ∧ fld ((w.epPayload 0 (tok 0xF0000)).2.headD 0) 19 16 = 15 ∧
    BitVec.ofNat 16 (fld ((w.epPayload 0 (tok 9)).2.headD 0) 15 0) ≠ (tFlit false true).mseq ∧ (Endpoint.reset.message = none) ∧
    bit (k.reg 0x4260) 31 = true ∧ (k.ep 1).heldRows = 1 ∧ 0 < (k.ep 1).heldRows ∧ gateRows (k.reg 0x4260) = 1 ∧
    w.spillWait [tok 0, tFlit false true] = false ∧
    ((tOf { tDie with cores := [(0, { k with banks := [(bankKey 1 0, .waking 0)] })] }).wk 0).spillWait
      [{ tok 0 with spill := some 0 }, tFlit false true] = true ∧
    ((k.ep 1).q.find? (fun f => f.held && f.tail) = some (tFlit true true) ∧ k.reg 0x4264 ≠ 0 ∧ (k.ep 1).heldRows < gateRows 0x80000201 ∧
      (tFlit true true).ts.toNat + (k.reg 0x4264).toNat ≤ ({ tDie with ts := 5 }).ts.toNat ∧ bit (tDie.reg 0xC0000) 31 = false) ∧
    bit (k.reg 0x4270) 31 = false ∧ k.annex = false ∧ k.epMode 1 = 2 ∧ k.epMode 9 ≠ 2 ∧ k.ctxBusy (k.epCtx 1) = true := by decide +kernel

/-- A flit at an input for a core in the same row, on a tree, under a header with an uncorrectable error; one that waits at its output. -/
theorem test_router_hyps :
    let f (kind dest : Nat) : Flit := ⟨{ Hdr.unpack 0 with vc := 1, kind := kind, dest := dest }.pack, [], [], [], none, false⟩
    let d (f : Flit) (regs : Tbl Word) : Die := { tDie with routers := [(0, { Router.reset with inq := [(0, [f])], regs := regs })] }
    isCore 0 = true ∧ isCore 47 = true ∧ (0 : Nat) ≠ 47 ∧ ((d (f 0 5) []).router 0).inp 0 = [f 0 5] ∧ (f 0 5).err = [] ∧ (f 0 5).h.vc ≠ 3 ∧ (f 0 5).onTree = false ∧
    (f 0 5).farModule = none ∧ (f 0 5).forDie = false ∧ ((d (f 0 5) []).router 0).vc1At 2 < 24 ∧ Router.reset.inp 0 = [] ∧ (f 1 63).onTree = true ∧
    (let r := (d (f 1 63) [(0x5100 + 8 * 63, 0x80050000)]).router 0
     bit (r.reg (0x5100 + 8 * 63)) 31 = true ∧ bit (r.reg (0x5100 + 8 * 63)) 30 = false ∧ r.fork.countP (fun x => x.inp == 0) < 4 ∧
     (∀ o, o < 6 → bit (r.reg (0x5100 + 8 * 63)) (16 + o) = true → r.forkFree o 63 = true) ∧
     ∃ o ∈ List.range 6, bit (r.reg (0x5100 + 8 * 63)) (16 + o) = true ∧
       ({ r with outq := [(o, List.replicate 24 ⟨1, 0, 0, f 0 5⟩)] }).forkFree o 63 = false) ∧
    (let g : Flit := ⟨{ Hdr.unpack 0 with vc := 0, kind := 6, dest := 5 }.pack, [], [], [], none, false⟩
     let r : Router := { Router.reset with inq := [(0, [f 0 5, g])], fork := List.replicate 4 ⟨0, [2], f 1 63⟩ }
     r.inp 0 = [f 0 5, g] ∧ r.forkHeld 0 = 4 ∧ g.err = [] ∧ g.h.vc ≠ 1 ∧ g.onTree = false ∧ r.heldFrom 0 0 < 2) ∧
    24 ≤ ({ Router.reset with outq := [(2, List.replicate 24 ⟨1, 0, 0, f 0 5⟩)] }).vc1At 2 ∧
    (let r : Router := { Router.reset with regs := [(0x5100, 0xC0060000), (0x5104, 0x1D1)] }
     (r.children 0).length = 2 ∧ ¬ (r.partials 0 ≤ (r.childFlits 0 1).length ∧
       (fld (r.reg 0x5104) 30 28 + 1 ≤ r.partials 0 ∨ 8 ≤ r.allPartials))) ∧
    (let r : Router := { Router.reset with regs := [(0x5100, 0xC0060000), (0x5104, 0x1D1)], red := [⟨0, 1, f 2 0⟩] }
     r.partials 0 ≤ (r.childFlits 0 1).length ∧ fld (r.reg 0x5104) 30 28 + 1 ≤ r.partials 0) ∧
    (let r : Router := { Router.reset with regs := [(0x5100, 0xC0020000), (0x5104, 0x39)] }
     r.children 0 = [1]) ∧
    bit ((d (f 1 63) []).router 0 |>.reg (0x5100 + 8 * 63)) 31 = false := by decide +kernel

/-- A reduction tree of two children that each hold a flit, alike and unlike; an aged flit that may go; the Cellar's flits. -/
theorem test_reduction_hyps :
    let f (seq : Nat) : Flit := ⟨{ Hdr.unpack 0 with vc := 1, kind := 2, mseq := seq }.pack, List.replicate 8 0, [], [], none, false⟩
    let r (n : Nat) : Router := { Router.reset with regs := [(0x5100, 0xC0060000), (0x5104, 0x1D1)], red := [⟨0, 1, f 0⟩, ⟨0, 2, f n⟩] }
    (r 0).children 0 = [1, 2] ∧ bit ((r 0).reg 0x5100) 31 = true ∧ bit ((r 0).reg 0x5100) 30 = true ∧ ((r 0).children 0).Nodup ∧
    ((r 0).children 0).map (fun p => ((r 0).childFlits 0 p).head?) = (f 0 :: f 0 :: []).map some ∧ (f 0).h.mseq = (f 0).h.mseq ∧
    ((r 7).children 0).map (fun p => ((r 7).childFlits 0 p).head?) = (f 0 :: f 7 :: []).map some ∧ (f 7).h.mseq ≠ (f 0).h.mseq ∧
    (r 0).vc1At 0 < 24 ∧ bit (Router.reset.reg 0x5100) 31 = false ∧
    (let x : OutFlit := ⟨2, 1, 0, f 0⟩
     let d : Die := { tDie with cyc := 256, routers := [(0, { Router.reset with outq := [(2, [x])] })] }
     oldest (((d.router 0).out 2).filter (fun x => x.vc == 2 && decide (x.at_ + 256 ≤ 256))) = some x ∧ tget none (d.router 0).aged 2 = none ∧
     tget 0 (d.router 0).granted 2 ≠ 257 ∧ d.credit 0 2 (f 0) = true ∧ (d.router 0).fork = [] ∧ (neighbour 0 2).isSome = true) ∧
    tDie.celIn = [] ∧ ({ tDie with cyc := 1, celIn := [(0, f 0)] }).celIn = (0, f 0) :: [] ∧ tDie.celAt ≠ some 1 ∧ 0 < [(0 : BitVec 64)].length := by decide +kernel

/-! ### Tensor movement -/

/-- The words of a descriptor that copies 64 bytes of INT8 from handle 0 to where word 40 and word 41 say. -/
def tDesc (w40 w41 : Word) : List Word :=
  [0, 0x88, 0, 0, 64, 1, 1, 1, 1] ++ List.replicate 7 0 ++ [0x4688, 0, 0, 64, 1, 1, 1, 1] ++ List.replicate 5 0 ++ [1] ++ List.replicate 10 0 ++
    [w40, w41, 0, 64, 1, 1, 1, 1] ++ List.replicate 5 0 ++ [1] ++ List.replicate 10 0

/-- A core with a second handle and two range entries (a core window that both directions of channel 0 may use, a hole), the DMA engine granted, the
bytes of a descriptor in its Pantry, the same descriptor VALID in slot 0, at a word. -/
def tDma (x : BitVec 64) : Core :=
  { tEngCore x with
    regs := (tEngCore x).regs ++ [(0x1008, 0x80004000), (0x100C, 0x4000), (0x6010, 0x04000400), (0x6400, 0xE0000001), (0x6404, 0x100000), (0x6408, 0xFFFF0000), (0x640C, 0x40)] ++
      (List.range 64).map (fun i => (descReg 0 0 i, if i = 0 then 0x80000000 else nth 0 (tDesc 0x08004688 0) i))
    mem := [(4, 0x88), (16, 64), (20, 1), (24, 1), (28, 1), (32, 1)] ++
      [(0x2000, 0x88), (0x2001, 0x46), (0x200C, 64), (0x2010, 1), (0x2014, 1), (0x2018, 1), (0x201C, 1), (0x2034, 1)] ++
      [(0x4020, 0x88), (0x4021, 0x46), (0x4023, 0x08), (0x402C, 64), (0x4030, 1), (0x4034, 1), (0x4038, 1), (0x403C, 1), (0x6014, 1)]
    ballast := [(3, .engaged 0)] }

/-- The block around it. -/
def tMove (x : BitVec 64) : State := tOf { tDie with cores := [(0, tDma x)] }

/-- Coordinates at both ends of a side whose strides have both signs, and of a side in planes. -/
theorem test_footprint_hyps :
    let s (t : ElemType) : Side := ⟨false, 0, 0, 0, [0, 1, 2, 3, 4], 4096, [129, 2, 1, 1, 1], [0, 0, 0, 0, 0], [4, -64, 0, 0, 0], 0, t⟩
    (s .fp32).e.length = 5 ∧ (s .fp32).inBounds [0, 0, 0, 0, 0] = true ∧ (s .fp32).inBounds [128, 1, 0, 0, 0] = true ∧
    (s .e2m1).inBounds [128, 1, 0, 0, 0] = true ∧ (s .fp32).inBounds [129, 0, 0, 0, 0] = false := by decide +kernel

/-- A descriptor that passes: two local sides that only touch, and one that writes through a range entry; and one that overlaps. -/
theorem test_valid_hyps :
    let w := (tMove 0).wk 0
    w.validate 0 (tDesc 0x08004688 0) = St.OK ∧ w.validate 0 (tDesc 0x4688 64) = St.OK ∧ w.validate 0 (tDesc 0x4688 63) = St.DMA_OVERLAP ∧
    w.validate 0 (tDesc 0x80004688 0x100000) ≠ St.DMA_MODE ∧ w.validate 0 (List.replicate 64 0) ≠ St.OK := by decide +kernel

/-- The last point of an iteration. -/
theorem test_point_hyp : 63 < dTotal (tDesc 0 0) ∧ pointOf (tDesc 0 0) 63 = [63, 0, 0, 0, 0] := by decide +kernel

/-- Nine whole lines that go one way are a message of eight and one of one, each line one of its own without merging, and lines that go by two
ways are kept apart; of three lines two are asked for at a time, and one under a bucket of none. -/
theorem test_message_hyps :
    let l (i : Nat) : LineW := ⟨i, List.replicate 64 0, List.replicate 64 0xFF, false⟩
    let one : Nat → Option (Bool × Nat) := fun _ => some (false, 1)
    let two : Nat → Option (Bool × Nat) := fun n => some (true, n % 2)
    0 < 8 ∧ ((cutLines id one true ((List.range 9).map l)).map (·.length) = [8, 1] ∨ (cutLines id one true ((List.range 9).map l)).map (·.length) = [1, 8]) ∧
    (cutLines id one false ((List.range 3).map l)).map (·.length) = [1, 1, 1] ∧ (cutLines id two true ((List.range 2).map l)).map (·.length) = [1, 1] ∧
    0 < 2 ∧ runLength id one 2 [0, 1, 2] = 2 ∧ runLength id two 2 [0, 1, 2] = 1 := by decide +kernel

/-- DDEF of a descriptor that passes and of one that does not, with the engine granted and without; register writes while the context is idle and while
it runs; range entries that are good and bad. -/
theorem test_descriptor_hyps :
    let x := tWord 0x18 0
    let w := (tMove x).issuedWk 0 0 0 x
    let d (o : Nat) : List Word := (BitVec.ofNat 32 (elemAt (w.bytesAt 0 (offsets o 256)) 4 0 % 2 ^ 31)) ::
      (List.range 63).map (fun i => BitVec.ofNat 32 (elemAt (w.bytesAt 0 (offsets o 256)) 4 (i + 1)))
    (tMove x).Runs 0 0 0 x 0x18 ∧ w.mayStart 3 = true ∧ w.Reads 0 0 (span 0 256) (w.bytesAt 0 (offsets 0 256)) ∧ w.validate 0 (d 0) = St.OK ∧
    w.Reads 0 0 (span 256 256) (w.bytesAt 0 (offsets 256 256)) ∧ w.validate 0 (d 256) ≠ St.OK ∧
    (tEngCore x).engine 0 3 = .released ∧ (tMove x).die.coreOn (0 : CoreCode).toNat = true ∧ (tDma 0).ctxBusy 0 = true ∧ (tDma 0).ctxBusy 3 = false ∧
    ((tMove 0).wk 0).fabricOk 0xFFFF000000100000 4096 = true ∧ ((tMove 0).wk 0).fabricOk 0xFFFF0000F0000000 64 = false ∧
    bit ((tDma 0).reg 0x6400) 31 = true ∧ w.c.defFree ≤ tDie.cyc ∧ (∀ y ∈ w.c.ports, y.port ≠ portDma) := by
  refine ⟨?_, ?_, ⟨⟨0, 0, 16384⟩, ?_, ?_, ?_, ?_⟩, ?_, ⟨⟨0, 0, 16384⟩, ?_, ?_, ?_, ?_⟩, ?_, ?_, ?_, ?_, ?_, ?_, ?_, ?_, ?_, ?_⟩ <;> decide +kernel

/-- DGO of a slot that is VALID, with and without an adjustment of a dimension that there is not, and of a slot that is not. -/
theorem test_dgo_hyps :
    let x := tWord 0x19 0
    let w := (tMove x).issuedWk 0 0 0 x
    (tMove x).Runs 0 0 0 x 0x19 ∧ w.mayStart 3 = true ∧ bit (dw (w.c.desc 0 0) 0) 31 = true ∧ bit (dw (w.c.desc 0 15) 0) 31 = false ∧
    (w.cvt (dw (w.c.desc 0 0) 1)).isSome = true ∧ (tMove (tWord 0x19 (put 1 53 + put 5 46))).Runs 0 0 0 (tWord 0x19 (put 1 53 + put 5 46)) 0x19 ∧
    dMode (w.c.desc 0 0) = 0 ∧ bit (dw (w.c.desc 0 0) 0) 23 = false ∧ (tEngCore x).engine 0 3 = .released := by decide +kernel

/-- A running transfer of channel 0: its lines still to ask for, its requests outstanding, its writes to inject, and the acknowledgements owed. -/
def tXfer (todo : List Nat) (out : List DmaMsg) (ws : List DmaMsg) (acks : List (Nat × BitVec 64)) : Run :=
  { ctx := 0, slot := 0, pc := 0, serial := 1, desc := tDesc 0x08004688 0, sad := 5, sa := 0, dad := 5, da := 0, list := []
    cvt := ⟨0, false, false, false, 0, .int8, .int8⟩, seed := 0, tweak := 0, span := 0, toRead := todo, asked := 0, reading := out, got := []
    bad := [], formed := true, toWrite := ws, acks := acks, nextTag := 9 }

/-- The line that a window of a core of this die starts with. -/
def tLine : Nat := 0xFFFF000000100000 / 64

/-- A read request of two lines and a write of one, to a core of this die. -/
def tRead : DmaMsg := readMsg id 0xFFFF tLine 2 9 0
/-- The write. -/
def tWrite : DmaMsg := writeMsg id 0xFFFF [⟨tLine, List.replicate 64 1, List.replicate 64 0xFF, false⟩] 1

/-- The block with such a transfer, a port taken or free, a full bucket or an empty one, and flits delivered. -/
def tXferSt (r : Option Run) (at_ : Option Nat) (level : Nat) (rx : List Flit) : State :=
  tOf { tDie with cores := [(0, { tDma 0 with chans := [(0, ⟨r, ⟨level, 0⟩, 0, 0⟩)], injAt := at_, rx := rx })] }

/-- What channel 0 admits next: nothing, a request, a write's first flit and its last, at a free port and a taken one, from a full bucket and an
empty one, on a way that there is and one that there is not. -/
theorem test_request_hyps :
    let k (r : Option Run) : Core := (tXferSt r none 4096 []).coreAt 0
    let next (r : Run) : Option (Bool × DmaMsg) := ((tXferSt (some r) none 4096 []).wk 0).nextMsg 0 r
    (tXferSt none none 0 []).die.coreOn (0 : CoreCode).toNat = true ∧ ((k none).chan 0).run = none ∧
    ((k (some (tXfer [] [] [] []))).chan 0).run = some (tXfer [] [] [] []) ∧
    ((tXferSt none (some 0) 0 []).coreAt 0).injAt = some 0 ∧ (k none).injAt ≠ some 0 ∧
    next (tXfer [tLine, tLine + 1] [] [] []) = some (true, tRead) ∧ next (tXfer [] [] [tWrite] []) = some (false, tWrite) ∧
    (((k none).chan 0).shaper.spend ((k none).reg 0x6010) 0 2).isSome = true ∧
    (((tXferSt none none 0 []).coreAt 0).chan 0).shaper.spend ((k none).reg 0x6010) 0 2 = none ∧
    ((tXferSt none none 0 []).wk 0).fabricDest tRead.dest = some (false, 1) ∧ ((tXferSt none none 0 []).wk 0).fabricDest 0x0001000000100000 = none ∧
    (tRead.flits[tRead.sent]?).isSome = true ∧ tWrite.sent + 1 < tWrite.flits.length ∧ (tWrite.flits[1]?).isSome = true := by decide +kernel

/-- What comes back to channel 0: a line, a denial, an acknowledgement that is owed and one that is not; and the end of a run, with an access
that its banks still owe and with none. -/
theorem test_response_hyps :
    let k (r : Option Run) : Core := (tXferSt r none 4096 []).coreAt 0
    let w := (tXferSt none none 4096 []).wk 0
    let line : Flit := ⟨{ Hdr.unpack 0 with vc := 1, kind := 5, mseq := 9 }.pack, List.replicate 8 7, [], [], none, false⟩
    let ack (n : Nat) (st : Status) : Flit :=
      ⟨{ Hdr.unpack 0 with vc := 0, kind := 6, mseq := n }.pack, [BitVec.ofNat 64 st.toNat, 0, 0, 0, 0, 0, 0, 0], [], [], none, false⟩
    (k (some (tXfer [] [tRead] [] []))).readOut line.h = true ∧ line.h.sep % 4 = 0 ∧ [tRead].find? (fun m => m.tag == line.h.mseq) = some tRead ∧
    line.h.kind = 5 ∧ line.err = [] ∧ (ack 9 St.WIN_DENIED).h.kind = 6 ∧ fld ((ack 9 St.WIN_DENIED).word 0) 15 0 = St.WIN_DENIED.toNat ∧
    (k (some (tXfer [] [tRead] [] []))).readOut (ack 9 St.WIN_DENIED).h = true ∧
    [tRead].find? (fun m => w.answers (ack 9 St.WIN_DENIED).h ((ack 9 St.WIN_DENIED).word 1) m.tag m.dest) = some tRead ∧
    (k (some (tXfer [] [] [] [(1, tWrite.dest)]))).readOut (ack 1 0).h = false ∧ fld ((ack 1 0).word 0) 15 0 = 0 ∧
    [(1, tWrite.dest)].find? (fun x => w.answers (ack 1 0).h ((ack 1 0).word 1) x.1 x.2) = some (1, tWrite.dest) ∧
    [(2, tWrite.dest)].find? (fun x => w.answers (ack 1 0).h ((ack 1 0).word 1) x.1 x.2) = none ∧
    (tXfer [] [] [] []).formed = true ∧ (∀ y ∈ (k none).ports, y.tag ≠ 0 + 1) := by decide +kernel

/-! ### Synchronisation -/

/-- A core whose context 0 maps its identifier 0 to semaphore 0, with work counter 0 of context 0 at 0 of 8 and barrier channel 0 open, at a word. -/
def tSyncCore (x : BitVec 64) (sem : Sem) (annex : Bool) : Core :=
  { tCore with
    istore := [(0, x)]
    sems := [(0, sem)]
    regs := [(0x108, 0xFFF0000), (0xC000, 0x80000000), (0xD100, 0x80000000), (0xD104, 0), (0xD108, 8), (0xD140, 1)] ++
      (if annex then [(0xA00, 0x80000000)] else []) }

/-- The block around it. -/
def tSync (x : BitVec 64) (sem : Sem) (annex : Bool) : State := tOf { tDie with cores := [(0, tSyncCore x sem annex)] }

/-- A first and a second signal of a cycle, and values within half the range of each other. -/
theorem test_semaphore_hyps : Sem.reset.at_ ≠ some 0 ∧ (Sem.reset.signal false false 3 1 ⟨0, 0, 0, 0⟩).at_ ≠ some 4 ∧
    Sem.reset.initAt ≠ some 0 ∧ 0 < 16 ∧ atOrAfter 16 65535 0 = true ∧
    atOrAfter 16 0 32768 = false := by decide +kernel

/-- No wait of a table is granted where none of its rows holds. -/
theorem tNoGrant (k : Core) (cyc : Nat)
    (h : ∀ i, i < 16 → (k.rwait i).any (fun r => waitHolds k.annex r.cmp r.thresh ((k.sem r.phys).grantable cyc)) = false) : k.NoGrant cyc := by
  intro i r hi hr
  simpa [hr] using h i hi

/-- SSIG on each kind of semaphore: unmapped, orphaned, set in this cycle, on an Annex core, within the range and past it; and a remote one. -/
theorem test_signal_hyps :
    let x := tWord 0x10 (put 1 13)
    let y := tWord 0x10 (put 1 53)
    (tSync x .reset false).Runs 0 0 0 x 0x10 ∧ (tSync x .reset true).Runs 0 0 0 x 0x10 ∧ queueOf x = 0 ∧ fld x 54 53 = 0 ∧ fld y 54 53 ≠ 0 ∧
    (tSync y .reset false).Runs 0 0 0 y 0x10 ∧ (((tSync y .reset false).issuedWk 0 0 0 y).singleHdr 0 3 0xFFFF 5 0 0).isSome = true := by decide +kernel

/-- The semaphores that SSIG finds. -/
theorem test_signal_case_hyps :
    let x := tWord 0x10 (put 1 13)
    let k (sem : Sem) (annex : Bool) : Core := ((tSync x sem annex).issuedWk 0 0 0 x).c
    (k .reset false).semPhys 0 63 = none ∧ (k .reset false).semPhys 0 0 = some 0 ∧
    ((k { Sem.reset with orph := true } false).sem 0).orph = true ∧ ((k { Sem.reset with initAt := some 0 } false).sem 0).initAt = some 0 ∧
    ((k .reset false).sem 0).initAt ≠ some 0 ∧ (k .reset true).annex = true ∧ (k .reset false).annex = false ∧
    bit (tDie.reg 0x40000) 0 = false ∧ bit ((tDie.setNat 0x40000 1).reg 0x40000) 0 = true ∧
    ((k { Sem.reset with value := 65535 } false).sem 0).saturates 0 (fld x 28 13) = true ∧ ((k .reset false).sem 0).saturates 0 (fld x 28 13) = false ∧
    (let z := tWord 0x10 (put 1 55 + put 1 13)
     queueOf z = 1 ∧ ((tSync z .reset false).issuedWk 0 0 0 z).c.queueDone 1 ≤ tDie.cyc) := by decide +kernel

/-- SWAIT that holds and that does not, in both comparisons, on an orphaned semaphore, past the annex's range, and a remote one. -/
theorem test_wait_hyps :
    let x := tWord 0x11 (put 1 13)
    let a := tWord 0x11 (put 16384 13)
    let y := tWord 0x11 (put 1 53 + put 5 41)
    (∀ n, n < 3 → let z := nth 0 [x, y, tWord 0x11 (put 63 29)] n
      (tSync z .reset false).Runs 0 0 0 z 0x11 ∧ queueOf z = 0) ∧
    (tSync a .reset true).Runs 0 0 0 a 0x11 ∧ (tSyncCore x .reset false).semPhys 0 63 = none ∧
    fld x 54 53 = 0 ∧ 16383 < fld a 28 13 ∧ fld x 28 13 ≤ 16383 ∧ fld y 54 53 ≠ 0 ∧
    (((tSync y .reset false).issuedWk 0 0 0 y).singleHdr 0 3 0xFFFF 5 0 0).isSome = true := by decide +kernel

/-- What SWAIT finds. -/
theorem test_wait_case_hyps :
    let x := tWord 0x11 (put 1 13)
    ((tSyncCore x { Sem.reset with value := 1 } false).sem 0).grantable 0 = 1 ∧ ¬ 1 ≤ ((tSyncCore x .reset false).sem 0).grantable 0 ∧
    atOrAfter 16 1 1 = true ∧ atOrAfter 16 1 0 = false ∧ bit (tWord 0x11 (put 1 5)) 5 = true ∧ bit x 5 = false := by decide +kernel

/-- SINIT, WTAKE, WSET and SBAR in each of their cases. -/
theorem test_counter_hyps :
    let k := tSyncCore 0 .reset false
    (∀ n, n < 6 → let x := nth 0 [tWord 0x12 0, tWord 0x12 (put 63 49), tWord 0x13 (put 8 17), tWord 0x13 (put 1 53), tWord 0x14 0, tWord 0x15 0] n
      (tSync x .reset false).Runs 0 0 0 x (opc x) ∧ queueOf x = 0) ∧
    (k.sem 0).at_ ≠ some 0 ∧ tget false k.wcOrph 0 = false ∧ (bit (k.reg 0xD100) 31 = true ∧ fld (k.reg 0xD100) 1 0 = 0) ∧
    (k.reg 0xD104).toNat < (k.reg 0xD108).toNat ∧ ((k.setReg 0xD108 0).reg 0xD108).toNat ≤ (k.reg 0xD104).toNat ∧ bit (k.reg 0xD110) 31 = false ∧
    tget false ({ k with wcOrph := [(0, true)] }).wcOrph 0 = true ∧ bit (k.reg 0xD140) 0 = true ∧ bit (k.reg 0xD140) 30 = false ∧
    tget false k.barArr 0 = false ∧ tget false ({ k with barArr := [(0, true)] }).barArr 0 = true := by decide +kernel

/-- A synchronisation message from core 5 of this die, of an operation, with the fields of its first word, a status and a value. -/
def tMop (mop low : Nat) (st : Status) (v : Nat) : Flit :=
  ⟨{ Hdr.unpack 0 with vc := 0, kind := 3, src := 5 }.pack, [BitVec.ofNat 64 (put mop 60 + low), syncWord1 0xFFFF st v, 0, 0, 0, 0, 0, 0], [], [], none, false⟩

/-- A wait of a remote core for more than there is. -/
def tRow : RWait := ⟨false, false, 0, 0, 1, 0xFFFF, 5, some 10⟩

/-- Each message delivered, and each case of what it finds. -/
theorem test_remote_sync_hyps :
    let k (rx : List Flit) : Core := { tSyncCore 0 .reset false with rx := rx }
    let pick (f : Flit) (mop : Nat) : Bool := (k [f]).rx.find? (fun f => f.h.vc == 0 && f.h.kind == 3 && fld (f.word 0) 63 60 == mop) == some f
    (tSync 0 .reset false).die.coreOn (0 : CoreCode).toNat = true ∧ (∀ n, n < 6 → pick (tMop n 0 0 0) n = true) ∧ pick (tMop 0 0 0 0) 1 = false ∧
    fld ((tMop 1 (put 1 36) 0 0).word 0) 51 36 = 1 ∧ fld ((tMop 1 (put 63 52) 0 0).word 0) 57 52 = 63 ∧ (k []).semPhys 0 63 = none ∧ (k []).semPhys 0 0 = some 0 ∧
    fld ((tMop 2 0 0 0).word 1) 63 48 = tDie.addr.toNat ∧ waitHolds false false 0 0 = true ∧ waitHolds false true 1 0 = false ∧
    (k []).rwait 0 = none ∧ (∀ i, i < 16 → ({ k [] with rwaits := (List.range 16).map (fun i => (i, some tRow)) }).rwait i ≠ none) ∧
    fld ((tMop 4 (put 3 52) 0 0).word 0) 53 52 = 3 ∧ bit ((k []).reg 0xD130) 31 = false ∧
    (k []).awaiting 4 0x11 = none ∧
    (let e : QEntry := { (k []).entry 0 0 (tWord 0x11 (put 1 53 + put 1 5)) with started := true }
     ({ k [] with queues := [(1, [e])] }).awaiting 1 0x11 = some e ∧ ({ k [] with queues := [(1, [e])] }).queue 1 = e :: [] ∧ bit e.word 5 = true ∧ e.ctx < 4) ∧
    (let e : QEntry := { (k []).entry 0 0 (tWord 0x13 (put 1 53)) with started := true }
     ({ k [] with queues := [(1, [e])] }).awaiting 1 0x13 = some e ∧ ({ k [] with queues := [(1, [e])] }).queue 1 = e :: [] ∧ bit e.word 5 = false) ∧
    BitVec.ofNat 16 (fld ((tMop 3 0 St.SEM_TIMEOUT 0).word 1) 47 32) ≠ St.OK ∧ BitVec.ofNat 16 (fld ((tMop 3 0 0 0).word 1) 47 32) = St.OK ∧
    fld ((tMop 3 (put 1 30) 0 0).word 0) 33 30 = 1 ∧
    ((k []).stale.contains (1, targetKey (0xFFFF, 5)) = false ∧ ({ k [] with stale := [(1, targetKey (0xFFFF, 5))] }).stale.contains (1, targetKey (0xFFFF, 5)) = true) := by decide +kernel

/-- No wait is granted: with no row in the table, and with one that waits for more than there is. -/
theorem test_no_grant_hyps : (tSyncCore 0 .reset false).NoGrant 0 ∧ ({ tSyncCore 0 .reset false with rwaits := [(0, some tRow)] }).NoGrant 0 :=
  ⟨tNoGrant _ _ (by decide +kernel), tNoGrant _ _ (by decide +kernel)⟩

/-- A remote wait before its limit and at it; a wait of a queue, and of the sequencer, one cycle before its limit and at it. -/
theorem test_wait_timeout_hyps :
    let k : Core := { tSyncCore 0 .reset false with ctxs := [], rwaits := [(0, some tRow)] }
    let e (at_ : Nat) : QEntry := { (tSyncCore 0 .reset false).entry 0 0 (tWord 0x11 (put 1 13 + put 1 55)) with headAt := some 0, done := at_ }
    let q : Core := { tSyncCore 0 .reset false with queues := [(1, [e 1])] }
    let s0 : Core := { tSyncCore 0 .reset false with sync0 := some (e 1) }
    let s := tOf { tDie with cores := [(0, k)] }
    s.die.coreOn (0 : CoreCode).toNat = true ∧ (∀ ch, ch < 4 → (k.chan ch).run = none) ∧ k.Idle ∧ k.rwait 0 = some tRow ∧
    (0 < 10 ∧ tRow.sdie = tDie.addr ∧ tRow.limit = some 10) ∧ ({ k with rwaits := [(0, some { tRow with limit := some 0 })] }).rwait 0 = some { tRow with limit := some 0 } ∧
    (q.queues = [(1, [e 1])] ∧ q.sync0 = none) ∧ (s0.queues = [] ∧ s0.sync0 = some (e 1)) ∧ opc (e 1).word = 0x11 ∧ fld (e 1).word 54 53 = 0 ∧ fld (e 1).word 28 13 ≤ 16383 ∧
    q.semPhys (e 1).ctx (fld (e 1).word 34 29) = some 0 ∧ (q.sem 0).orph = false ∧
    waitHolds q.annex (bit (e 1).word 11) (fld (e 1).word 28 13) ((q.sem 0).grantable 0) = false ∧
    ((tOf { tDie with cores := [(0, q)] }).wk 0).preempting 0 = false ∧ (e 1).headAt = some 0 ∧ (0 < 0 + (e 1).done ∧ 0 + (e 1).done ≤ 1) ∧ (e 1).ctx < 4 := by
  decide +kernel

/-- Identifiers mapped, taken and past the last semaphore, contexts that run and do not; a semaphore whose owner runs, and one with none. -/
theorem test_semaphore_write_hyps :
    let k := tSyncCore 0 .reset false
    k.ctxBusy 0 = true ∧ k.ctxBusy 1 = false ∧ bit (0 : Word) 31 = false ∧ fld (0x8000002F : Word) 5 0 = 47 ∧ k.semPhys 1 0 = none ∧ fld (0x80000030 : Word) 5 0 = 48 ∧
    (∃ ctx' id', ctx' < 4 ∧ id' < 64 ∧ (ctx' ≠ 1 ∨ id' ≠ 63) ∧ k.semPhys ctx' id' = some 0) ∧ k.semPhys 1 63 ≠ some 0 ∧
    k.semOwner 0 = some (0, 0) ∧ (∀ o, k.semOwner 47 = some o → k.ctxBusy o.1 = false) ∧ (k.sem 47).at_ ≠ some 0 := by
  refine ⟨by decide +kernel, by decide +kernel, by decide +kernel, by decide +kernel, by decide +kernel, by decide +kernel,
    ⟨0, 0, by decide +kernel, by decide +kernel, by decide +kernel, by decide +kernel⟩, by decide +kernel, by decide +kernel, ?_, by decide +kernel⟩
  have h : (tSyncCore 0 .reset false).semOwner 47 = none := by decide +kernel
  intro o ho
  rw [h] at ho
  exact absurd ho (by simp)

/-- A die whose channel 0 is open, of this die or of several with a parent at module 3, with core 0 taking part, arrived or not. -/
def tBar (wide : Nat) (arrived : Bool) (b : Bar) : Die :=
  { tDie with
    regs := tDie.regs ++ [(0x40100, BitVec.ofNat 32 (put 1 31 + put wide 29 + put 3 22)), (0x80000, 0x80000001), (0x81060, 0x80000105)]
    bars := [(0, b)]
    cores := [(0, { tSyncCore 0 .reset false with barArr := [(0, arrived)], ctxs := [] })] }

/-- A channel that is not full, one released at once, one that must ask its parent, one that has asked, one told. -/
theorem test_barrier_hyps :
    tDie.meshOn = true ∧ tCores.anyBusy = true ∧ (tBar 0 true .reset).anyBusy = false ∧ (tBar 0 false .reset).barFull 0 = false ∧ (tBar 0 true .reset).barFull 0 = true ∧
    (bit ((tBar 0 true .reset).reg 0x40100) 31 = true ∧ bit ((tBar 0 true .reset).reg 0x4010C) 31 = false) ∧ (tBar 0 true .reset).wide 0 = false ∧
    (tBar 1 true .reset).barFull 0 = true ∧ (tBar 1 true .reset).wide 0 = true ∧ bit ((tBar 1 true .reset).reg 0x40100) 28 = false ∧
    ((tBar 1 true .reset).bar 0).down = none ∧ ((tBar 1 true .reset).bar 0).up = false ∧ ((tBar 1 true ⟨[], true, none⟩).bar 0).up = true ∧
    ((tBar 1 true ⟨[], true, some false⟩).bar 0).down.isSome = true ∧ (tBar 0 true .reset).partakers 0 = [0] ∧
    (tBar 1 true .reset).rf 0x81060 9 8 % 2 = 1 ∧ fld ((tBar 1 true .reset).reg 0x40100) 27 22 = 3 ∧
    ((tBar 0 true .reset).core 0).semPhys 0 0 = some 0 ∧ (((tBar 0 true .reset).core 0).sem 0).value < 65535 := by decide +kernel

/-! ### Reset and bring-up -/

/-- A die in a phase of bring-up. -/
def tPhase (n : Nat) : Die := { tDie with regs := [(0x140000, BitVec.ofNat 32 n)] }

/-- Fuses of grade 0, with every row and no key asked for. -/
def tFuses : Fuses := { tDie.fuses with bad := false, grade := 0, absent := [], signReq := false, secmin := 0 }

/-- A copy that passes: empty pool data, one word of firmware, and a digest check whose 48 bytes are SHA-384 of the first 448 (FIPS 180-4, computed apart from this model). -/
def tImage : List Byte :=
  [0x31, 0x4C, 0x43, 0x5A, 1, 0, 0, 0, 0, 2, 0, 0, 3, 0, 0, 0] ++ List.replicate 16 0 ++
  [1, 0, 0, 0, 0, 1, 0, 0, 64, 0, 0, 0, 0, 0, 0, 0] ++ [2, 0, 0, 0, 0x40, 1, 0, 0, 72, 0, 0, 0, 0, 0, 0, 0] ++
  [0xFE, 0, 0, 0, 0xC0, 1, 0, 0, 48, 0, 0, 0, 0, 0, 0, 0] ++ List.replicate 176 0 ++ List.replicate 68 0 ++ [1, 0, 0, 0] ++ List.replicate 120 0 ++
  [13, 218, 36, 52, 52, 230, 22, 85, 211, 229, 195, 255, 19, 233, 68, 185, 214, 111, 251, 198, 114, 137, 166, 40, 25, 112, 83, 62, 44, 214, 184, 7, 50, 115, 88, 53, 207, 170, 130, 187, 100, 182, 167, 251, 17, 42, 67, 164] ++
  List.replicate 16 0

/-- The pins before and after PG_AON, and each state that PORST_N and a rail find. -/
theorem test_reset_hyps :
    Die.reset.boot.porst = true ∧ tDie.boot.porst = false ∧ Pins.unpowered.pwrEn = .z ∧ Pins.reset.pwrEn ≠ .z ∧ tFuses.bad = false ∧
    ({ tFuses with bad := true }).bad = true ∧ Die.reset.phase = 0 ∧ (2 ≤ 2 ∧ 2 < 6) ∧ tDie.pins.pwrEn = .high ∧ tDie.phase ≠ 15 ∧ Pins.reset.pwrEn ≠ .high := by
  decide +kernel

/-- The digest of the image's first 448 bytes is the one in it, and a copy that passes; one too short, and one that asks for a signature. -/
theorem test_image_hyps : celCheck tFuses tImage = St.OK ∧ celCheck tFuses [] ≠ St.OK ∧ celCheck { tFuses with signReq := true } tImage ≠ St.OK := by
  decide +kernel

/-- Each phase that a power-up step acts in, and what the flash, the regulator and the rails can say there. -/
theorem test_power_up_hyps :
    (∀ n, n < 16 → (tPhase n).phase = n ∧ (tPhase n).boot.porst = false) ∧ (24 < 25 ∧ 25 ≤ 25) ∧
    ({ tPhase 2 with therm := { Therm.reset with step := .vout true 2 0 } }).therm.step = .vout true 2 0 ∧ (1 < 2 ∧ 2 ≤ 2) ∧
    (tPhase 2).pins.pwrEn = .high ∧ ({ tPhase 2 with pins := .reset }).pins.pwrEn ≠ .high ∧ tFuses.gradeOk = true ∧ ({ tFuses with absent := [0] }).gradeOk = false ∧
    (499999 : BitVec 64).toNat < 0 + 500000 ∧ 0 + 500000 ≤ (500000 : BitVec 64).toNat := by decide +kernel

/-- A region row with no bad core, one at its end, and two; a place whose core presents N = 4. The rows of each grade. -/
theorem test_repair_rule_hyps :
    (64 * 47 + 13 * 3 + 12 ∈ [64 * 47 + 13 * 3 + 12] ∧ (∀ q, q < 12 → 64 * 47 + 13 * 3 + q ∉ [64 * 47 + 13 * 3 + 12])) ∧
    (∀ p, p < 13 → 64 * 47 + 13 * 3 + p ∉ ([] : List Nat)) ∧ (∃ n, (64 * 0 + 13 * 0 + 11, n) ∈ [(11, 0)]) ∧
    (∀ q, q < 11 → [(11, 0)].all (fun (x : Nat × Nat) => x.1 ≠ q) = true) ∧
    (List.range 48).Nodup ∧ (∀ r ∈ List.range 48, r < 48) ∧ (List.range 48).Pairwise (· < ·) ∧ (chooseGrade 0 (List.range 48)).1 = 0 ∧
    (chooseGrade 0 (List.range 47)).1 = 1 ∧ (chooseGrade 2 (List.range 45)).1 = 2 ∧ (chooseGrade 0 (List.range 35)).1 = 3 := by
  refine ⟨by decide, by decide, ⟨0, by decide⟩, by decide +kernel, by decide +kernel, by decide +kernel, by decide +kernel, by decide +kernel, by decide +kernel, by decide +kernel,
    by decide +kernel⟩

/-- The phases of test and repair with what each step waits for: no module trained yet, one in training, all out of it. -/
theorem test_firmware_hyps :
    let d (st : Nat) : Die := { tPhase 7 with regs := (tPhase 7).regs ++ [(modOff 47 1, BitVec.ofNat 32 st)] }
    (∀ m, m < 48 → (d 0).modState m = 0) ∧ (d 2).modState 47 = 2 ∧ (d 3).modState 47 ≠ 0 ∧ (∀ m, m < 48 → (d 3).modState m ≠ 2) ∧ (d 3).phase = 7 ∧
    ((tPhase 8).cyc < ({ (tPhase 8).boot with fwtime := 1 }).fwAt + 1) ∧ (tPhase 8).boot.fwAt + (tPhase 8).boot.fwtime ≤ (tPhase 8).cyc ∧
    bit (tPhase 8).boot.opts 6 = true ∧ bit (0 : Word) 6 = false ∧ (tPhase 8).boot.done = [] ∧ (tPhase 8).cores = [] ∧ bit (tPhase 8).boot.opts 5 = true ∧
    ((({ tPhase 8 with cores := [(0, { Core.reset with ctxs := [(0, { Ctx.reset with state := .stopped })] })] }).core 0).ctx 0).state = .stopped ∧
    (({ tPhase 8 with cores := [(0, tCore)] }).core 0).ctx 0 ≠ { Ctx.reset with state := .stopped } ∧ (tPhase 8).freeOf (regionRow 0) = false := by decide +kernel

/-- A commit stored, refused by phase, by a bad description, and taken; each register of the description in its range and out of it. -/
theorem test_site_hyps :
    let ok : Die := { tHeld with regs := tHeld.regs ++ [(0x80000, 0x80000001)] }
    (tOf tHeld).MayWrite (tReq 0x140034) 0x140034 ∧ (tOf ok).MayWrite (tReq 0x140034) 0x140034 ∧ tHeld.phase = 10 ∧ tHeld.job.state = 0 ∧ tHeld.siteBad = true ∧
    ok.siteBad = false ∧ (tPhase 7).phase ≠ 9 ∧ (tPhase 7).phase ≠ 10 ∧ bit (0x80000000 : Word) 31 = true ∧
    (∀ n, n < 3 → (tOf tHeld).MayWrite (tReq (siteRow (140 * n))) (siteRow (140 * n))) ∧ tHeld.meshOn = true ∧ siteRow 98 = 0x82000 ∧
    (tOf tHeld).MayWrite (tReq (siteRow 98)) (siteRow 98) ∧ tHeld.anyBusy = false ∧ ({ tHeld with cores := [(0, tCore)] }).anyBusy = true ∧
    thmOk 0x100004 0 = false ∧ siteRow 420 = 0x14003C ∧ ({ tHeld.boot with firstCommit := false }).firstCommit = false ∧ siteRow 418 = 0x10001C := by decide +kernel

/-! ### Attestation and the fault log -/

/-- A die with a message in port 0's request buffer, its responder at a stage. -/
def tSpdm (m : List Byte) (stage : Nat) (busy : Bool) : Die :=
  { tDie with regs := tDie.regs ++ [(0x200200, BitVec.ofNat 32 m.length)], spdm := [(0, ⟨stage, busy, m, [], [], [], []⟩)] }

/-- Each request waiting, and its forms that are answered and refused. -/
theorem test_attestation_hyps :
    (∀ n, n < 7 → (tOf (tSpdm [0x12, BitVec.ofNat 8 (nth 0 spdmCodes n), 0, 0] 3 true)).Asked 0 (nth 0 spdmCodes n)
      [0x12, BitVec.ofNat 8 (nth 0 spdmCodes n), 0, 0]) ∧
    (tOf tHeld).MayWrite (tReq 0x200200) 0x200200 ∧ ((tSpdm [] 0 true).spdmOf 0).busy = true ∧ ((tSpdm [] 0 false).spdmOf 0).busy = false ∧
    byteAt [0x12, 0x84] 1 ∈ spdmCodes ∧ byteAt [0x12, 0x85] 1 ∉ spdmCodes ∧ ((tSpdm [] 2 true).spdmOf 0).stage < 3 ∧ 3 ≤ ((tSpdm [] 3 true).spdmOf 0).stage ∧
    ((byteAt [0, 0, 0, 0, 0, 0, 1] 6).testBit 0 = true ∧ (leAt ([0, 0, 0, 0, 0, 0, 1, 0, 0x80, 0, 0, 0, 2] : List Byte) 8 4).testBit 7 = true) ∧
    byteAt [0x12, 0x82, 1] 2 % 16 ≠ 0 ∧ byteAt [0x12, 0x83, 0, 0xFF] 3 = 0xFF ∧ byteAt [0x12, 0x83, 1] 2 ≠ 0 ∧ byteAt [0x12, 0xE0, 1, 4] 3 ≤ 4 ∧
    ¬ (byteAt [0x12, 0xE0, 0, 5] 3 ≤ 4 ∨ byteAt [0x12, 0xE0, 0, 5] 3 = 0xFF) := by decide +kernel

/-- A log with room and a full one, an entry to write and none, a core at the threshold in the window and one below it. -/
theorem test_fault_log_hyps :
    let e : FEntry := ⟨0, 0, 3, 0, 0, 0, 0, 0, 0⟩
    let k : Core := { tCore with ceWin := 0, ceCnt := 16 }
    let d (k : Core) : Die := { tDie with regs := tDie.regs ++ [(0x240038, 16)], cores := [(0, k)] }
    [e].Pairwise (fun a b => a.before b = true) ∧ 32 ≤ (List.replicate 32 e).length ∧ tDie.flog.length < 32 ∧ ({ tDie with flog := [e] }).flog = e :: [] ∧ e.sev < 4 ∧
    (d k).rf 0x240038 15 0 ≠ 0 ∧ k.ceWin = (d k).cyc / 2 ^ 20 ∧ (d k).rf 0x240038 15 0 ≤ k.ceCnt ∧ k.ceRaised = false ∧ (d k).coreOn 0 = true ∧
    ¬ (d tCore).rf 0x240038 15 0 ≤ tCore.ceCnt := by decide +kernel

/-- A firmware check with which phase FIRMWARE ends, with IDLE set. -/
theorem test_firmware_end_hyps : ∃ t, (tPhase 8).boot.porst = false ∧ (tPhase 8).phase = 8 ∧ exec .firmwareCheck (tOf (tPhase 8)) = .next t ∧ t.die.phase = 9 ∧
    bit (tPhase 8).boot.opts 5 = true :=
  ⟨_, by decide +kernel, by decide +kernel, rfl, by decide +kernel, by decide +kernel⟩

/-! ### Commands that cannot come -/

/-- One ill-formed command for each check, and the check refuses it: a code past the last column, a code past the last row, a port, a module and a core that
are not there. -/
theorem test_ill_formed_code : wellFormed (.nop 48) = false ∧ wellFormed (.nop (64 * 48)) = false ∧ wellFormed (.nop (64 * 47 + 47)) = true ∧
    wellFormed (.ctxLoaded 48 0) = false ∧ wellFormed (.handleWrite 48 0 0 false 0) = false ∧ wellFormed (.spanFail (tReq 0) 48) = false := by decide

theorem test_ill_formed_request : wellFormed (.rcRead { tReq 0 with port := 2 }) = false ∧ wellFormed (.rcRead { tReq 0 with via := .module 48 }) = false ∧
    wellFormed (.rcRead { tReq 0 with via := .core 48 }) = false ∧ wellFormed (.rcRead { tReq 0 with via := .module 47, port := 1 }) = true := by decide

/-- No line, nine lines, a line of seven words, enables missing, and an enable line too many. -/
theorem test_ill_formed_lines :
    let l : List (BitVec 64) := List.replicate 8 0
    wellFormed (.lineWrite (tReq 0) [] []) = false ∧ wellFormed (.lineWrite (tReq 0) (List.replicate 9 l) (List.replicate 6 0)) = false ∧
    wellFormed (.lineWrite (tReq 0) [List.replicate 7 0] [0]) = false ∧ wellFormed (.lineWrite (tReq 0) [l] []) = false ∧
    wellFormed (.lineWriteBits (tReq 0) [l] [l, l]) = false ∧ wellFormed (.lineWrite (tReq 0) (List.replicate 8 l) (List.replicate 6 0)) = true := by decide

/-- A finding of a kind, a row and a column that there is not; a fuse array with too few voltages and with a row past the last. -/
theorem test_ill_formed_findings :
    wellFormed (.selfTest [⟨4, 0, 0, 0, 0⟩] false) = false ∧ wellFormed (.selfTest [⟨0, 48, 0, 0, 0⟩] false) = false ∧
    wellFormed (.selfTest [⟨0, 0, 52, 0, 0⟩] false) = false ∧ wellFormed (.selfTest [⟨3, 47, 51, 0, 0⟩] false) = true ∧
    wellFormed (.porstRelease { tFuses with vbase := [] } true 0 false) = false ∧
    wellFormed (.porstRelease { tFuses with vbase := List.replicate 16 0, absent := [48] } true 0 false) = false := by decide

/-- A shaper of each place, a training result, a hub entry, a reading, a register of the site and a boundary scan, each just past its end. -/
theorem test_ill_formed_rest :
    wellFormed (.shaperWrite (.endpoint 48 0) 0) = false ∧ wellFormed (.shaperWrite (.channel 48 0) 0) = false ∧ wellFormed (.shaperWrite (.hallway 48) 0) = false ∧
    wellFormed (.moduleTraining 0 4096 0 0) = false ∧ wellFormed (.hubTimeout (48 * 1024)) = false ∧ wellFormed (.sensorSample (List.replicate 35 0)) = false ∧
    wellFormed (.siteRegisterWrite (tReq 0) 421 0) = false ∧ wellFormed (.extest [true] []) = false ∧ wellFormed (.samplePreload [] [true]) = false := by
  decide +kernel

/-! ### One step each -/

/-- What a state that a step answers holds. -/
def tThen (o : Host.Outcome State Fault Refusal) (p : State → Bool) : Bool :=
  match o with
  | .next t => p t
  | _ => false

/-- The die with a command in front. -/
def tCmd (s : State) (c : Instr) : State := { s with pending := [c] }

/-- SALI ADD of 1 to a register of ones wraps to 0, and the sequencer goes on to the next word (R181). -/
theorem test_sali_wraps :
    let x := tWord 0x03 (put 1 53 + put 1 49 + put 2 45 + put 1 13)
    let s := tOf { tDie with cores := [(0, { tCore with istore := [(0, x)], regs := tCore.regs ++ [(0x3008, 0xFFFFFFFF), (0x3004, 7)] })] }
    tThen (step (tCmd s (.sali 0))) (fun t => (t.coreAt 0).sreg 0 1 == 0 && (t.coreAt 0).sreg 0 2 == 0xFFFFFFFF && ((t.coreAt 0).ctx 0).npc == 1) = true := by
  decide +kernel

/-- A reserved opcode faults the context with SEQ_OP (R173). -/
theorem test_reserved_opcode_faults :
    tThen (step (tCmd (tRun (tWord 4 0)) (.reservedOpcode 0))) (fun t => ((t.coreAt 0).ctx 0).state == .faulted && (t.coreAt 0).reg 0x004 == 0x80000000 + St.SEQ_OP.setWidth 32) =
      true := by decide +kernel

/-- A local SSIG that passes 65,535 in saturate mode holds there and sets SATF (R271). -/
theorem test_ssig_saturates :
    let x := tWord 0x10 (put 1 13)
    tThen (step (tCmd (tSync x { Sem.reset with value := 65535 } false) (.ssig 0))) (fun t => ((t.coreAt 0).sem 0).value == 65535 && ((t.coreAt 0).sem 0).satf) = true := by
  decide +kernel

/-- The Doorlatch, held by port A, is not given to port B (R452). -/
theorem test_doorlatch_is_exclusive :
    let s := tOf { tHeld with resps := [] }
    tThen (step (tCmd s (.dlAcquire { tReq 0x1C0000 with port := 1 } false 0 5))) (fun t => t.die.latch.port == 0 && t.die.latch.held) = true := by decide +kernel

/-- A rail that falls while PWR_EN is high halts the die and drops PWR_EN (R418, R540). -/
theorem test_rail_loss_halts : tThen (step (tCmd tSt (.powerGoodFall 2))) (fun t => t.die.phase == 15 && t.die.pins.pwrEn == .low) = true := by decide +kernel

/-- An image copy that passes takes bring-up to phase POWER (R417). -/
theorem test_flash_boots :
    let s := tOf { tPhase 1 with fuses := tFuses }
    tThen (step (tCmd s (.flashImageRead ⟨true, 24, false, false, false, false, tImage, []⟩))) (fun t => t.die.phase == 2 && t.die.boot.words == [0]) = true := by
  decide +kernel

/-- Conversions whose results IEEE 754 gives: 1 + 2⁻⁸ is a tie that rounds to even in BF16; 65520 saturates in FP16 (R41, R58). -/
theorem test_rounding :
    (encodeElem .bf16 .rne false (f32 0x3F808000)).1 = 0x3F80 ∧ (encodeElem .bf16 .rne false (f32 0x3F818000)).1 = 0x3F82 ∧
    (encodeElem .fp16 .rne false (f32 0x477FF000)).1 = 0x7BFF ∧ (encodeElem .fp16 .rne true (f32 0x477FF000)).1 = 0x7C00 := by decide +kernel

end Sys2Proof.Tests
end

section
/-! SUPPORT. The die at a glance: what a command reaches. Every command goes to its place through one operation of that place
(`exec_of_core`, `exec_of_mesh`, `exec_of_control`, `exec_of_bus`, `exec_of_tap`, `exec_of_reset`), and each of these operations leaves
what is outside its place (R29, R391, R392, R542). -/

namespace Sys2Proof.Machine

/-! ### What each place's operation leaves -/

theorem answers_mono {o : Host.Outcome State Fault Refusal} {P Q : State → Prop} (h : Answers o P) (hPQ : ∀ t, P t → Q t) : Answers o Q := by
  obtain ⟨t, ht, hP⟩ := h
  exact ⟨t, ht, hPQ t hP⟩

theorem answers_onDie (s : State) (f : Die → Die) {P : State → Prop} (h : P (s.withDie (f s.die))) : Answers (s.onDie f) P := ⟨_, rfl, h⟩

/-- The work of a core: nothing where none is at work, and the die around the core is left (R29, R392). -/
theorem onCore_keeps (s : State) (c : CoreCode) (f : Wk → Wk) : Answers (s.onCore c f) (fun t =>
    (s.die.coreOn c.toNat = false → t = s) ∧ t.die.around = s.die.around ∧ t.bus = s.bus ∧ t.tap = s.tap ∧ t.pending = s.pending) :=
  answers_onDie s _ ⟨fun hoff => by simp [Die.atCore, hoff], atCore_around s.die c f, rfl, rfl, rfl⟩

/-- The work of the mesh domain: nothing while the domain is off (R391). -/
theorem inMesh_keeps (s : State) (f : Die → Die) : Answers (s.inMesh f) (fun t =>
    (s.die.meshOn = false → t = s) ∧ t.bus = s.bus ∧ t.tap = s.tap) :=
  answers_onDie s _ ⟨fun hoff => by simp [hoff], rfl, rfl⟩

/-- The work of die control: nothing while PORST_N is low (R542). -/
theorem live_keeps (s : State) (f : Die → Die) : Answers (s.live f) (fun t =>
    (s.die.boot.porst = true → t = s) ∧ t.bus = s.bus ∧ t.tap = s.tap) :=
  answers_onDie s _ ⟨fun hlow => by simp [hlow], rfl, rfl⟩

theorem onBus_tap (s : State) (f : Bus → Bus) : (s.onBus f).tap = s.tap := by
  unfold State.onBus; split <;> rfl

theorem teleRead_tap (s : State) (n : Nat) : (s.teleRead n).tap = s.tap := by
  unfold State.teleRead iter
  split
  · exact List.foldlRecOn (motive := fun t : State => t.tap = s.tap) _ _ rfl (fun t ht _ _ => ht)
  · rfl

theorem epoFire_tap (s : State) (data : Byte) : (s.epoFire data).tap = s.tap := by
  unfold State.epoFire; split <;> rfl

theorem epoExpiry_tap (s : State) : s.epoExpiry.tap = s.tap := by
  unfold State.epoExpiry; split <;> rfl

/-- An instruction of the TAP changes the TAP alone, or nothing. -/
theorem tapRun_eq (s : State) (ir : TapIr) (out : Nat) (cells : Option (List Bool)) :
    ∃ x, s.tapRun ir out cells = { s with tap := x } := by
  unfold State.tapRun
  split
  · exact ⟨_, rfl⟩
  · exact ⟨s.tap, rfl⟩

/-! ### Through which operation a command goes

One case for each command; `cases h` leaves those of the place named. -/

theorem exec_of_core {i : Instr} {c : CoreCode} (h : reachOf i = .core c) (s : State) : ∃ f, exec i s = s.onCore c f := by
  cases i <;> cases h <;> unfold exec <;> exact ⟨_, rfl⟩

theorem exec_of_mesh {i : Instr} (h : reachOf i = .mesh) (s : State) : ∃ f, exec i s = s.inMesh f := by
  cases i <;> cases h <;> unfold exec <;> exact ⟨_, rfl⟩

/-- A write of one register of die control is work of die control (R392, R452). -/
theorem port_is_live (s : State) (q : Req) (off : Nat) (f : Die → Die × Option Status) : ∃ g, s.port q off f = s.live g := ⟨_, rfl⟩

theorem exec_of_control {i : Instr} (h : reachOf i = .control) (s : State) : ∃ f, exec i s = s.live f := by
  cases i <;> cases h
  case spanStop | spanRoll | spanFail | spanLate | siteCommit | siteRegisterWrite | loadGo | dlAcquire | dlRenew | dlRelease | dlReinit
      | jobStart | jobPause | jobResume | jobKill | jobUnload | jobScrub | spdmRequest =>
    exact port_is_live s _ _ _
  all_goals
    unfold exec
    exact ⟨_, rfl⟩

theorem exec_of_bus {i : Instr} (h : reachOf i = .bus) (s : State) : ∃ t, exec i s = .next t ∧ t.tap = s.tap := by
  cases i <;> cases h
  case telemetryRead n => exact ⟨_, rfl, teleRead_tap s n.toNat⟩
  case epoFire data => exact ⟨_, rfl, epoFire_tap s data⟩
  case epoArmExpiry => exact ⟨_, rfl, epoExpiry_tap s⟩
  all_goals exact ⟨_, rfl, onBus_tap s _⟩

theorem exec_of_tap {i : Instr} (h : reachOf i = .tap) (s : State) : ∃ x, exec i s = .next { s with tap := x } := by
  cases i <;> cases h
  case tapReset => exact ⟨_, rfl⟩
  all_goals
    obtain ⟨x, hx⟩ := tapRun_eq s _ _ _
    exact ⟨x, congrArg _ hx⟩

theorem exec_of_reset {i : Instr} (h : reachOf i = .reset) (s : State) : ∃ t, exec i s = .next t := by
  cases i <;> cases h <;> unfold exec <;> exact ⟨_, rfl⟩

/-! ### The statement -/

theorem exec_keeps_to_reach : Claims.CommandsKeepToTheirReach := by
  intro i s
  cases hr : reachOf i with
  | core c =>
    obtain ⟨f, hf⟩ := exec_of_core hr s
    rw [hf]
    refine answers_mono (onCore_keeps s c f) (fun t ⟨hoff, _, hbus, htap, _⟩ => ?_)
    simpa [hbus, htap] using hoff
  | mesh =>
    obtain ⟨f, hf⟩ := exec_of_mesh hr s
    rw [hf]
    refine answers_mono (inMesh_keeps s f) (fun t ⟨hoff, hbus, htap⟩ => ?_)
    simpa [hbus, htap] using hoff
  | control =>
    obtain ⟨f, hf⟩ := exec_of_control hr s
    rw [hf]
    refine answers_mono (live_keeps s f) (fun t ⟨hlow, hbus, htap⟩ => ?_)
    simpa [hbus, htap] using hlow
  | bus =>
    obtain ⟨t, ht, htap⟩ := exec_of_bus hr s
    exact ⟨t, ht, by simp [htap]⟩
  | tap =>
    obtain ⟨x, hx⟩ := exec_of_tap hr s
    exact ⟨_, hx, by simp⟩
  | reset =>
    obtain ⟨t, ht⟩ := exec_of_reset hr s
    exact ⟨t, ht, by simp⟩

theorem exec_of_core_leaves_around : Claims.CoreCommandsLeaveTheDieAround := by
  intro i c s hr
  obtain ⟨f, hf⟩ := exec_of_core hr s
  rw [hf]
  exact answers_mono (onCore_keeps s c f) (fun _ ⟨_, hkept⟩ => hkept)

/-- Settles O4: each command is one operation of its place, and the frame is that operation's. -/
theorem commandsKeepToTheirReach : Obligations.CommandsKeepToTheirReach :=
  ⟨exec_keeps_to_reach, exec_of_core_leaves_around⟩

end Sys2Proof.Machine
end
